-- ==== Sys2Proof/Word.lean ====
section
/-! DEFINITION. The word types of PTX: a byte of the wire and of pixel memory, and the 32-bit word of the host bus
(00_scope.md R6, REG_BITS and CHANNEL_BITS). All values are unsigned (R7). -/

namespace Sys2Proof

/-- An 8-bit byte: a wire byte, a bitmap byte, a colour sample (R6 CHANNEL_BITS, R8). -/
abbrev Byte := BitVec 8

/-- A 32-bit host register or host-bus data word (R6 REG_BITS). -/
abbrev Word := BitVec 32

end Sys2Proof
end

