-- ==== Sys2Proof/Config.lean ====
section
/-! DEFINITION. The implementation parameters of 00_scope.md R6, each named once, and the free values: the constants
without a body that stand for what the spec leaves open (93_implementation_defined.md I5, I8, I9). -/

namespace Sys2Proof.Config

/-- HEADER_LEN: bytes in the header, sent as one channel write (R6). -/
def headerLen : Nat := 10
/-- TRAILER_LEN: bytes in the trailer, sent as one channel write (R6). -/
def trailerLen : Nat := 3
/-- CHUNK_SIZE: the most payload bytes in one channel write (R6, R124, D24). -/
def chunkSize : Nat := 128
/-- FIELD_MAX: the largest width in bytes or height the header can carry (R6, R202). -/
def fieldMax : Nat := 65535
/-- PIXELS_PER_BYTE (R6). -/
def pixelsPerByte : Nat := 8
/-- SAMPLE_BYTES: bytes per pixel sample, R, G, B, A (R6, R52, D12). -/
def sampleBytes : Nat := 4
/-- MAX_WRITE_LEN: the largest length of one channel write (R6, R81). -/
def maxWriteLen : Nat := 128
/-- MAX_PAYLOAD = 65535 × 65535 (R6). -/
def maxPayload : Nat := 4294836225
/-- MAX_FRAME = 13 + MAX_PAYLOAD (R6). -/
def maxFrame : Nat := 4294836238
/-- MAX_PIXELS = 524280 × 65535 (R6). -/
def maxPixels : Nat := 34358689800
/-- PM_BASE: the byte address of pixel sample 0 (R52). -/
def pmBase : Nat := 0
/-- The number of pixel samples a 35-bit index reaches (R50, R52). -/
def pmSamples : Nat := 34359738368

/-- WIRE_ESC_AT, header bytes 0 and 1 (30_encoding.md R75). UNVERIFIED against the printer (log 21). -/
def escAt : List Byte := [0x1B, 0x40]
/-- The constant bytes 2 to 5 of the header, which open WIRE_GS_V_0 (R75). UNVERIFIED (log 21). -/
def gsV0 : List Byte := [0x1D, 0x76, 0x30, 0x00]
/-- WIRE_ESC_D_0, the trailer (R78). UNVERIFIED (log 21). -/
def escD0 : List Byte := [0x1B, 0x64, 0x00]

/-- Free value: the byte read from a pixel byte address that nothing backs, for each draw (I5, log 9). -/
opaque freePixelByte : Nat → Nat → Byte

/-- Free value: a payload byte whose source pixels the host changed during the job, for each draw (R235, I8, log 10). -/
opaque freeBitmapByte : Nat → Byte

/-- Free value: the bitmap buffer after the RESET step, for each draw (R42, I9, log 8). -/
opaque freeBitmap : Nat → List Byte

end Sys2Proof.Config
end

