-- ==== Sys2Proof/Syntax.lean ====
section
/-! DEFINITION. The operations of PTX (30_encoding.md R84), one constructor for each mnemonic of spec/opcode_table.json,
and the forms in which they arrive: one form for each format of the table (R70). -/

namespace Sys2Proof

/-- The operations of 30_encoding.md R84. A reserved operation (RD_RSVD, CMD_RSVD, WR_IGNORED) has several rows in the
table because one match and mask cannot express its set (R84); its operand ranges over them (log 17). -/
inductive Instr where
  /-- RD_CTRL (R161). -/
  | rdCtrl
  /-- RD_STATUS (R162). -/
  | rdStatus
  /-- RD_WIDTH_PX (R163). -/
  | rdWidthPx
  /-- RD_HEIGHT (R164). -/
  | rdHeight
  /-- RD_GEOMETRY (R165). -/
  | rdGeometry
  /-- RD_PAYLOAD_LEN (R166). -/
  | rdPayloadLen
  /-- RD_BYTES_SENT (R167). -/
  | rdBytesSent
  /-- RD_CURSOR (R168). -/
  | rdCursor
  /-- RD_CHUNK_IDX (R169). -/
  | rdChunkIdx
  /-- RD_PARAMS (R170). -/
  | rdParams
  /-- RD_RSVD of the reserved word slot 10 to 63 (R177). -/
  | rdRsvd (slot : BitVec 6)
  /-- CMD_NOP (R173). -/
  | cmdNop
  /-- CMD_START (R174). -/
  | cmdStart
  /-- CMD_CLEAR (R175). -/
  | cmdClear
  /-- CMD_RSVD with the command code 0x3 to 0xF (R176). -/
  | cmdRsvd (cmd : BitVec 4)
  /-- WR_WIDTH_PX of the value written (R171). -/
  | wrWidthPx (value : BitVec 32)
  /-- WR_HEIGHT of the value written (R172). -/
  | wrHeight (value : BitVec 32)
  /-- WR_IGNORED of the word slot written: STATUS, a read-only register or a reserved slot (R177). -/
  | wrIgnored (slot : BitVec 6)
  /-- RSP_OK, the response OK = 1 (R142). -/
  | rspOk
  /-- RSP_FAIL, the response OK = 0 (R143). -/
  | rspFail
  /-- RESET, the reset signal (R230). -/
  | reset
  /-- WIRE_ESC_AT: PTX presents the write that opens with header bytes 0 and 1 (R75, R120, log 5). -/
  | wireEscAt
  /-- WIRE_GS_V_0: PTX presents the write that closes with header bytes 2 to 9, carrying WB and HT (R75, R120, log 5). -/
  | wireGsV0 (wb ht : BitVec 16)
  /-- WIRE_RASTER_DATA: PTX presents a payload chunk of these bytes (R77, R103, R124, log 5). -/
  | wireRasterData (chunk : List Byte)
  /-- WIRE_ESC_D_0: PTX presents the trailer (R78, R121, log 5). -/
  | wireEscD0
deriving DecidableEq, Repr

/-- An operation as its bits, by the format (the port) it stands on: the "format" column of the opcode table. The
format comes from the port, not from the bits (30_encoding.md R70). -/
inductive RawOp where
  /-- HB: the 41-bit host-bus transaction (R71). -/
  | hb (word : BitVec 41)
  /-- RSP: the response bit OK (R82). -/
  | rsp (ok : BitVec 1)
  /-- signal: the level of the reset input (R230). -/
  | signal (level : BitVec 1)
  /-- HDR: the bytes of one command of the header (R75). -/
  | hdr (bytes : List Byte)
  /-- PAY: the payload bytes of one write (R77, R81). -/
  | pay (bytes : List Byte)
  /-- TRL: the bytes of the trailer (R78). -/
  | trl (bytes : List Byte)
deriving DecidableEq, Repr

/-- Why some bits are no operation of the table. Host-bus words and response bits are always operations (R72, R82). -/
inductive Reject where
  /-- A reset input at level 0 is no reset (R230). -/
  | resetNotAsserted
  /-- These header bytes are neither WIRE_ESC_AT nor WIRE_GS_V_0 (R75, R85). -/
  | notHeaderCommand
  /-- A payload write carries 1 to 128 bytes (R81, R125). -/
  | notPayloadWrite
  /-- The trailer is exactly 1B 64 00 (R78, R85). -/
  | notTrailer
deriving DecidableEq, Repr

end Sys2Proof
end

