-- ==== Sys2Proof/WellFormed.lean ====
section
/-! DEFINITION. Which terms of Instr stand for bits that exist: the operand ranges of 30_encoding.md R72, R74 and R81. -/

namespace Sys2Proof

/-- The reserved slots of a host read are 10 to 63 (R72). -/
def reservedReadSlot (slot : BitVec 6) : Bool := 10 ≤ slot.toNat

/-- The slots whose writes are ignored are 1 and 4 to 63: all but CTRL 0, WIDTH_PX 2 and HEIGHT 3 (R72). -/
def ignoredWriteSlot (slot : BitVec 6) : Bool := slot.toNat = 1 || 4 ≤ slot.toNat

/-- The reserved command codes are 0x3 to 0xF (R74). -/
def reservedCommand (cmd : BitVec 4) : Bool := 3 ≤ cmd.toNat

/-- A payload write carries 1 to 128 bytes (R81, R125). -/
def payloadWriteLen (chunk : List Byte) : Bool := 1 ≤ chunk.length && chunk.length ≤ Config.maxWriteLen

/-- The well-formed operations: each operand in the range of its rows. -/
def Instr.wf : Instr → Bool
  | .rdRsvd slot => reservedReadSlot slot
  | .cmdRsvd cmd => reservedCommand cmd
  | .wrIgnored slot => ignoredWriteSlot slot
  | .wireRasterData chunk => payloadWriteLen chunk
  | .rdCtrl => true
  | .rdStatus => true
  | .rdWidthPx => true
  | .rdHeight => true
  | .rdGeometry => true
  | .rdPayloadLen => true
  | .rdBytesSent => true
  | .rdCursor => true
  | .rdChunkIdx => true
  | .rdParams => true
  | .cmdNop => true
  | .cmdStart => true
  | .cmdClear => true
  | .wrWidthPx _ => true
  | .wrHeight _ => true
  | .rspOk => true
  | .rspFail => true
  | .reset => true
  | .wireEscAt => true
  | .wireGsV0 _ _ => true
  | .wireEscD0 => true

end Sys2Proof
end

