-- ==== Sys2Proof/Decode.lean ====
section
/-! DEFINITION. The decoder of 30_encoding.md R71 to R82, total on every form and rejecting by name; the encoder; the
rows of spec/opcode_table.json as data; and the table's words as the host asks about them. -/

namespace Sys2Proof

/-- HB bit 40: WE, 1 for a write (R71). -/
def hbWe (w : BitVec 41) : BitVec 1 := w.extractLsb' 40 1
/-- HB bits [39:34]: ADDR[7:2], the word slot (R71). ADDR[1:0], bits [33:32], are ignored (R60). -/
def hbSlot (w : BitVec 41) : BitVec 6 := w.extractLsb' 34 6
/-- HB bits [31:0]: WDATA (R71). -/
def hbWdata (w : BitVec 41) : BitVec 32 := w.extractLsb' 0 32
/-- CMD, the command code: bits [3:0] of the WDATA of a write to CTRL (R73). Bits [31:4] are ignored. -/
def cmdField (wdata : BitVec 32) : BitVec 4 := wdata.extractLsb' 0 4

/-- The operation of a host read of a word slot (R72, the WE = 0 rows). -/
def decodeRead (slot : BitVec 6) : Instr :=
  match slot.toNat with
  | 0 => .rdCtrl
  | 1 => .rdStatus
  | 2 => .rdWidthPx
  | 3 => .rdHeight
  | 4 => .rdGeometry
  | 5 => .rdPayloadLen
  | 6 => .rdBytesSent
  | 7 => .rdCursor
  | 8 => .rdChunkIdx
  | 9 => .rdParams
  | _ => .rdRsvd slot

/-- The command of a write to CTRL (R74). -/
def decodeCommand (cmd : BitVec 4) : Instr :=
  match cmd.toNat with
  | 0 => .cmdNop
  | 1 => .cmdStart
  | 2 => .cmdClear
  | _ => .cmdRsvd cmd

/-- The operation of a host write to a word slot (R72, the WE = 1 rows). -/
def decodeWrite (slot : BitVec 6) (wdata : BitVec 32) : Instr :=
  match slot.toNat with
  | 0 => decodeCommand (cmdField wdata)
  | 2 => .wrWidthPx wdata
  | 3 => .wrHeight wdata
  | _ => .wrIgnored slot

/-- Host-bus decode, total on every 41-bit word (R72). -/
def decodeHb (w : BitVec 41) : Instr :=
  if hbWe w = 1 then decodeWrite (hbSlot w) (hbWdata w) else decodeRead (hbSlot w)

/-- A 16-bit field from its low and high byte: the header's fields are little-endian (20_memory.md R56). -/
def joinBytes (lo hi : Byte) : BitVec 16 := hi ++ lo
/-- The low byte of a 16-bit field, v % 256 (30_encoding.md R76). -/
def lowByte (v : BitVec 16) : Byte := v.extractLsb' 0 8
/-- The high byte of a 16-bit field, v / 256 (R76). -/
def highByte (v : BitVec 16) : Byte := v.extractLsb' 8 8

/-- The four size bytes of WIRE_GS_V_0: WB low, WB high, HT low, HT high (R75). -/
def sizeBytes (wb ht : BitVec 16) : List Byte := [lowByte wb, highByte wb, lowByte ht, highByte ht]

/-- The header command that these bytes are (R75). -/
def decodeHdr (bytes : List Byte) : Except Reject Instr :=
  match bytes with
  | [_, _] => if bytes = Config.escAt then .ok .wireEscAt else .error .notHeaderCommand
  | [a, b, c, d, l, m, h, k] =>
    if [a, b, c, d] = Config.gsV0 then .ok (.wireGsV0 (joinBytes l m) (joinBytes h k)) else .error .notHeaderCommand
  | _ => .error .notHeaderCommand

/-- The decoder: total, and it rejects by name what is no row of the table (R72, R75, R77, R78, R82, R230). -/
def decode : RawOp → Except Reject Instr
  | .hb w => .ok (decodeHb w)
  | .rsp ok => if ok = 1 then .ok .rspOk else .ok .rspFail
  | .signal level => if level = 1 then .ok .reset else .error .resetNotAsserted
  | .hdr bytes => decodeHdr bytes
  | .pay bytes => if payloadWriteLen bytes then .ok (.wireRasterData bytes) else .error .notPayloadWrite
  | .trl bytes => if bytes = Config.escD0 then .ok .wireEscD0 else .error .notTrailer

/-- A host-bus word from its fields: WE, ADDR[7:2], ADDR[1:0], WDATA, from bit 40 down (R71). -/
def hbTransaction (we : BitVec 1) (slot : BitVec 6) (low : BitVec 2) (wdata : BitVec 32) : BitVec 41 :=
  we ++ (slot ++ (low ++ wdata))

/-- A host-bus word with ADDR[1:0] = 0, as 30_encoding.md R86 writes them. -/
def hbWord (we : BitVec 1) (slot : BitVec 6) (wdata : BitVec 32) : BitVec 41 := hbTransaction we slot 0 wdata

/-- The word of a host read, with its ignored WDATA written as 0 (R85, R86). -/
def readWord (slot : BitVec 6) : RawOp := .hb (hbWord 0 slot 0)
/-- The word of a host write (R86). -/
def writeWord (slot : BitVec 6) (wdata : BitVec 32) : RawOp := .hb (hbWord 1 slot wdata)

/-- The encoder, written from the opcode table; ignored bits are 0 (R85: software should write reserved fields as 0). -/
def encode : Instr → RawOp
  | .rdCtrl => readWord 0
  | .rdStatus => readWord 1
  | .rdWidthPx => readWord 2
  | .rdHeight => readWord 3
  | .rdGeometry => readWord 4
  | .rdPayloadLen => readWord 5
  | .rdBytesSent => readWord 6
  | .rdCursor => readWord 7
  | .rdChunkIdx => readWord 8
  | .rdParams => readWord 9
  | .rdRsvd slot => readWord slot
  | .cmdNop => writeWord 0 0
  | .cmdStart => writeWord 0 1
  | .cmdClear => writeWord 0 2
  | .cmdRsvd cmd => writeWord 0 (cmd.setWidth 32)
  | .wrWidthPx value => writeWord 2 value
  | .wrHeight value => writeWord 3 value
  | .wrIgnored slot => writeWord slot 0
  | .rspOk => .rsp 1
  | .rspFail => .rsp 0
  | .reset => .signal 1
  | .wireEscAt => .hdr Config.escAt
  | .wireGsV0 wb ht => .hdr (Config.gsV0 ++ sizeBytes wb ht)
  | .wireRasterData chunk => .pay chunk
  | .wireEscD0 => .trl Config.escD0

/-- The mnemonic of an operation in spec/opcode_table.json. -/
def mnemonicOf : Instr → String
  | .rdCtrl => "RD_CTRL"
  | .rdStatus => "RD_STATUS"
  | .rdWidthPx => "RD_WIDTH_PX"
  | .rdHeight => "RD_HEIGHT"
  | .rdGeometry => "RD_GEOMETRY"
  | .rdPayloadLen => "RD_PAYLOAD_LEN"
  | .rdBytesSent => "RD_BYTES_SENT"
  | .rdCursor => "RD_CURSOR"
  | .rdChunkIdx => "RD_CHUNK_IDX"
  | .rdParams => "RD_PARAMS"
  | .rdRsvd _ => "RD_RSVD"
  | .cmdNop => "CMD_NOP"
  | .cmdStart => "CMD_START"
  | .cmdClear => "CMD_CLEAR"
  | .cmdRsvd _ => "CMD_RSVD"
  | .wrWidthPx _ => "WR_WIDTH_PX"
  | .wrHeight _ => "WR_HEIGHT"
  | .wrIgnored _ => "WR_IGNORED"
  | .rspOk => "RSP_OK"
  | .rspFail => "RSP_FAIL"
  | .reset => "RESET"
  | .wireEscAt => "WIRE_ESC_AT"
  | .wireGsV0 _ _ => "WIRE_GS_V_0"
  | .wireRasterData _ => "WIRE_RASTER_DATA"
  | .wireEscD0 => "WIRE_ESC_D_0"

/-- The host-bus rows of spec/opcode_table.json: mnemonic, match and mask over the 41-bit word (R71). The decoder does
not use them; statements hold it against them. -/
def hbRows : List (String × BitVec 41 × BitVec 41) :=
  [("RD_CTRL", 0x00000000000, 0x1FC00000000),
   ("RD_STATUS", 0x00400000000, 0x1FC00000000),
   ("RD_WIDTH_PX", 0x00800000000, 0x1FC00000000),
   ("RD_HEIGHT", 0x00C00000000, 0x1FC00000000),
   ("RD_GEOMETRY", 0x01000000000, 0x1FC00000000),
   ("RD_PAYLOAD_LEN", 0x01400000000, 0x1FC00000000),
   ("RD_BYTES_SENT", 0x01800000000, 0x1FC00000000),
   ("RD_CURSOR", 0x01C00000000, 0x1FC00000000),
   ("RD_CHUNK_IDX", 0x02000000000, 0x1FC00000000),
   ("RD_PARAMS", 0x02400000000, 0x1FC00000000)]
  ++
  [("RD_RSVD", 0x02800000000, 0x1F800000000),
   ("RD_RSVD", 0x03000000000, 0x1F000000000),
   ("RD_RSVD", 0x04000000000, 0x1C000000000),
   ("RD_RSVD", 0x08000000000, 0x18000000000),
   ("CMD_NOP", 0x10000000000, 0x1FC0000000F),
   ("CMD_START", 0x10000000001, 0x1FC0000000F),
   ("CMD_CLEAR", 0x10000000002, 0x1FC0000000F),
   ("CMD_RSVD", 0x10000000003, 0x1FC0000000F),
   ("CMD_RSVD", 0x10000000004, 0x1FC0000000C),
   ("CMD_RSVD", 0x10000000008, 0x1FC00000008)]
  ++
  [("WR_WIDTH_PX", 0x10800000000, 0x1FC00000000),
   ("WR_HEIGHT", 0x10C00000000, 0x1FC00000000),
   ("WR_IGNORED", 0x10400000000, 0x1FC00000000),
   ("WR_IGNORED", 0x11000000000, 0x1F000000000),
   ("WR_IGNORED", 0x12000000000, 0x1F800000000),
   ("WR_IGNORED", 0x12800000000, 0x1F800000000),
   ("WR_IGNORED", 0x13000000000, 0x1F000000000),
   ("WR_IGNORED", 0x14000000000, 0x1C000000000),
   ("WR_IGNORED", 0x18000000000, 0x18000000000)]

/-- The n bytes of a number, the most significant first: the wire patterns of the table read as one number, "byte 0
first, each byte MSB first" (log 7). -/
def bytesOfNumber : Nat → Nat → List Byte
  | 0, _ => []
  | n + 1, w => bytesOfNumber n (w / 256) ++ [BitVec.ofNat 8 w]

/-- The form that stands for a table word of nbits bits. The table's widths name the format, but for one byte: there 0
and 1 are read as the response bit, and any other byte as a payload byte; RESET shares its word with RSP_OK (log 6). -/
def rawOfTableWord (nbits w : Nat) : Option RawOp :=
  if nbits = 0 ∨ 2 ^ nbits ≤ w then none
  else if nbits ≤ 8 then
    if w ≤ 1 then some (.rsp (BitVec.ofNat 1 w)) else some (.pay [BitVec.ofNat 8 w])
  else if nbits = 16 then some (.hdr (bytesOfNumber 2 w))
  else if nbits = 24 then some (.trl (bytesOfNumber 3 w))
  else if nbits = 64 then some (.hdr (bytesOfNumber 8 w))
  else if 41 ≤ nbits ∧ nbits ≤ 48 ∧ w < 2 ^ 41 then some (.hb (BitVec.ofNat 41 w))
  else none

/-- The instruction the decoder reads from a word of the opcode table, numbered as the table numbers its bits. -/
def decodeTableWord (nbits w : Nat) : Option Instr :=
  match rawOfTableWord nbits w with
  | none => none
  | some raw =>
    match decode raw with
    | .ok i => some i
    | .error _ => none

end Sys2Proof
end

