-- ==== Sys2Proof/Machine/State.lean ====
section
/-! DEFINITION. The state of PTX (10_state.md R20 to R32), pixel memory and the channel stream (20_memory.md R52, R54),
the model's own records, the reasons to stop, and the state after reset (R42). -/

namespace Sys2Proof.Machine

/-- STATE, the sequencer state: the six values of 10_state.md R22. Its 4-bit code is `seqCode` (Flags.lean); the codes
6 to 15 are never held (R22, I12), so they have no constructor (log 13). -/
inductive SeqState where
  /-- 0: no job; session registers cleared. -/
  | idle
  /-- 1: the header write is next or in flight. -/
  | sendHdr
  /-- 2: payload chunk CHUNK_IDX is next or in flight. -/
  | sendChunk
  /-- 3: the trailer write is next or in flight. -/
  | sendTrl
  /-- 4: the trailer was confirmed. -/
  | done
  /-- 5: the job failed; ERR_CODE and ERR_STAGE say why. -/
  | failed
deriving DecidableEq, Repr

/-- ERR_CODE, the reason of a failure (10_state.md R31, 60_exceptions.md R200); codes 4 to 15 are never held (log 13). -/
inductive ErrCode where
  /-- 0: no failure. -/
  | none
  /-- 1: INVALID_DIMENSIONS (R201). -/
  | invalidDimensions
  /-- 2: DIMENSION_OVERFLOW (R202). -/
  | dimensionOverflow
  /-- 3: CHANNEL_WRITE_FAILED (R204). -/
  | channelWriteFailed
deriving DecidableEq, Repr

/-- ERR_STAGE, the stage of a channel-write failure (10_state.md R32). -/
inductive Stage where
  /-- 0: none. -/
  | none
  /-- 1: the header write. -/
  | header
  /-- 2: a payload chunk. -/
  | payload
  /-- 3: the trailer write. -/
  | trailer
deriving DecidableEq, Repr

/-- WR, a write request on the channel port: LEN in 8 bits and DATA in index order (30_encoding.md R81). -/
structure WriteReq where
  /-- LEN. -/
  len : BitVec 8
  /-- DATA, byte 0 first. -/
  data : List Byte
deriving DecidableEq, Repr

/-- One pixel sample (20_memory.md R52). -/
structure Sample where
  /-- Red. -/
  r : Byte
  /-- Green. -/
  g : Byte
  /-- Blue. -/
  b : Byte
  /-- Alpha, which no rule uses (R100). -/
  a : Byte
deriving DecidableEq, Repr

/-- One agent's step, as the agenda lists it (00_scope.md R10, log 1). -/
inductive Turn where
  /-- An operation arrives on its port, as its bits: a host-bus transaction, a response, the reset signal, or the
  block's issue step named by the wire bytes it presents (log 5). -/
  | op (raw : RawOp)
  /-- The BLOCK takes its issue step if it is enabled (42_sequencer_arbiter.md R141). -/
  | block
  /-- The HOST writes one sample of pixel memory (10_state.md R39, 20_memory.md R52, log 20). -/
  | pixel (index : BitVec 35) (sample : Sample)
  /-- Events of one clock cycle: whether reset is asserted, a response, a host-bus word (60_exceptions.md R208, log 16). -/
  | together (reset : Bool) (response : Option (BitVec 1)) (host : Option (BitVec 41))
deriving DecidableEq, Repr

/-- Pixel memory as (byte address, byte) pairs, addresses strictly rising (20_memory.md R52; `Memory.wf` in Ops.lean). -/
abbrev Memory := List Host.Cell

/-- The state. The fields down to `bm` are PTX's own (10_state.md R20), `pm` is the host's (R39), `cs` is the channel
stream (20_memory.md R54); the rest are the model's records and its schedule (INVENTORY.md, State). -/
structure State where
  /-- STATE (R22). -/
  seqState : SeqState
  /-- WIDTH_PX (R23). -/
  widthPx : Word
  /-- HEIGHT (R24). -/
  height : Word
  /-- GEOMETRY: WB in bits 15 to 0, HT in bits 31 to 16 (R25). -/
  geometry : Word
  /-- PAYLOAD_LEN (R26). -/
  payloadLen : Word
  /-- BYTES_SENT (R27). -/
  bytesSent : Word
  /-- CURSOR (R28). -/
  cursor : Word
  /-- CHUNK_IDX (R29). -/
  chunkIdx : Word
  /-- INFLIGHT (R30). -/
  inflight : Bool
  /-- ERR_CODE (R31). -/
  errCode : ErrCode
  /-- ERR_STAGE (R32). -/
  errStage : Stage
  /-- BM, the bitmap buffer (20_memory.md R53). -/
  bm : List Byte
  /-- PM, pixel memory (20_memory.md R52). -/
  pm : List Host.Cell
  /-- CS, the channel stream: every write request presented, oldest first (20_memory.md R54). -/
  cs : List WriteReq
  /-- The model's record: the requests whose confirmation was taken, oldest first (20_memory.md R58, log 3). -/
  delivered : List WriteReq
  /-- The model's record: the progress events emitted, oldest first (30_encoding.md R83, log 3). -/
  progress : List Word
  /-- The model's record: the RDATA words returned to the host, oldest first (30_encoding.md R71, log 3). -/
  reads : List Word
  /-- The model's schedule: the agents' steps still to come (00_scope.md R10, log 1). -/
  agenda : List Turn
  /-- The model's counter of free values taken (log 11). -/
  draws : Nat
deriving DecidableEq, Repr

/-- Where the machine stops. Both are raised in states that no run from reset reaches (10_state.md R37), so both are
safe: the spec gives the step no meaning there (log 14). -/
inductive Fault where
  /-- Raised by a response with INFLIGHT = 1 while no write is current: the helpers of 42_sequencer_arbiter.md R140 are
  defined only while STATE is busy. Safe. -/
  | noCurrentWrite
  /-- Raised by the issue step when the chunk it would present is not a non-empty range of BM (20_memory.md R53, R125):
  those bytes do not exist. Safe. -/
  | bitmapRange
deriving DecidableEq, Repr

/-- What the model gives no meaning. -/
inductive Refusal where
  /-- Raised by exec's arm of an instruction without a meaning; no arm raises it any more. Safe. -/
  | notModelled (mnemonic : String)
  /-- Raised by step for wire bytes or a signal level that are no row of the opcode table (log 15). Safe. -/
  | undecodable (why : Reject)
deriving DecidableEq, Repr

/-- The state right after reset (10_state.md R42). BM has no reset value in the spec: DESIGN CHOICE the empty list
(log 8). Pixel memory lists nothing (log 9). The model's own fields are empty, and `draws` is 0 (log 11). -/
def State.reset : State where
  seqState := .idle
  widthPx := 0
  height := 0
  geometry := 0
  payloadLen := 0
  bytesSent := 0
  cursor := 0
  chunkIdx := 0
  inflight := false
  errCode := .none
  errStage := .none
  bm := []
  pm := []
  cs := []
  delivered := []
  progress := []
  reads := []
  agenda := []
  draws := 0

end Sys2Proof.Machine
end

