-- ==== Sys2Proof/Machine/Flags.lean ====
section
/-! DEFINITION. The codes of the sequencer and error registers, the level outputs, and the STATUS and PARAMS words
(10_state.md R22, R31 to R33, R35, R40). -/

namespace Sys2Proof.Machine

/-- The 4-bit code of STATE (10_state.md R22). -/
def seqCode : SeqState → BitVec 4
  | .idle => 0
  | .sendHdr => 1
  | .sendChunk => 2
  | .sendTrl => 3
  | .done => 4
  | .failed => 5

/-- The 4-bit code of ERR_CODE (60_exceptions.md R200). -/
def errBits : ErrCode → BitVec 4
  | .none => 0
  | .invalidDimensions => 1
  | .dimensionOverflow => 2
  | .channelWriteFailed => 3

/-- The 2-bit code of ERR_STAGE (10_state.md R32). -/
def stageBits : Stage → BitVec 2
  | .none => 0
  | .header => 1
  | .payload => 2
  | .trailer => 3

/-- Busy: STATE is SEND_HDR, SEND_CHUNK or SEND_TRL (R22). -/
def busyState : SeqState → Bool
  | .sendHdr => true
  | .sendChunk => true
  | .sendTrl => true
  | .idle => false
  | .done => false
  | .failed => false

/-- An end state: DONE or FAILED (R22). -/
def endState : SeqState → Bool
  | .done => true
  | .failed => true
  | .idle => false
  | .sendHdr => false
  | .sendChunk => false
  | .sendTrl => false

/-- The level output `busy`, STATUS bit 11 (R40). -/
def isBusy (s : State) : Bool := busyState s.seqState

/-- The level output `job_end`, STATUS bit 12 (R40, R205). -/
def jobEnd (s : State) : Bool := endState s.seqState

/-- STATUS: reserved 0, END, BUSY, INFLIGHT, ERR_STAGE, ERR_CODE, STATE, from bit 31 down (R33, R162). -/
def statusWord (s : State) : BitVec 32 :=
  0#19 ++ (BitVec.ofBool (jobEnd s) ++ (BitVec.ofBool (isBusy s) ++ (BitVec.ofBool s.inflight ++
    (stageBits s.errStage ++ (errBits s.errCode ++ seqCode s.seqState)))))

/-- PARAMS: 0, TRAILER_LEN, HEADER_LEN, CHUNK_SIZE, a byte each from bit 31 down (R35). -/
def paramsWord : BitVec 32 :=
  0#8 ++ (BitVec.ofNat 8 Config.trailerLen ++ (BitVec.ofNat 8 Config.headerLen ++ BitVec.ofNat 8 Config.chunkSize))

end Sys2Proof.Machine
end

