-- ==== Sys2Proof/Machine/Operands.lean ====
section
/-! DEFINITION. The operand forms: the fields of GEOMETRY, the width in bytes, byte lanes, sample addresses and the pixel
sample read by PixRead (10_state.md R25, 20_memory.md R52, R59). -/

namespace Sys2Proof.Machine

/-- WB = GEOMETRY[15:0], the width in bytes (10_state.md R25). -/
def geomWb (s : State) : BitVec 16 := s.geometry.extractLsb' 0 16

/-- HT = GEOMETRY[31:16], the height in rows (R25). -/
def geomHt (s : State) : BitVec 16 := s.geometry.extractLsb' 16 16

/-- GEOMETRY from a width in bytes and a height: {H[15:0], WB[15:0]} (43_host_interface.md R174). -/
def geometryOf (wbytes h : BitVec 32) : BitVec 32 := h.extractLsb' 0 16 ++ wbytes.extractLsb' 0 16

/-- The width in bytes of a width in pixels, W >> 3 (R174). -/
def widthBytes (w : BitVec 32) : BitVec 32 := w >>> 3

/-- Byte lane k of a register word, bits [8k+7:8k] (20_memory.md R59). -/
def byteLane (k : Nat) (w : BitVec 32) : Byte := w.extractLsb' (8 * k) 8

/-- The byte address of byte k of pixel sample p (20_memory.md R52). -/
def sampleAddr (p k : Nat) : Nat := Config.pmBase + Config.sampleBytes * p + k

/-- The sample index of the pixel in row r and column c of an image of width W (R52). -/
def sampleIndex (w r c : Nat) : Nat := r * w + c

/-- The byte at an address of pixel memory, `none` where nothing has been written (log 9). -/
def memGet : Memory → Nat → Option Byte
  | [], _ => none
  | (a, b) :: rest, k => if a = k then some b else memGet rest k

/-- The byte PTX reads at an address: what is written there, or any value where nothing backs it (I5, log 9). -/
def pixelByte (pm : Memory) (draw addr : Nat) : Byte :=
  match memGet pm addr with
  | some b => b
  | none => Config.freePixelByte draw addr

/-- PixRead(p): the four bytes of sample p, R, G, B, A from the lowest address (00_scope.md R9, 20_memory.md R52). -/
def pixRead (pm : Memory) (draw p : Nat) : Sample where
  r := pixelByte pm draw (sampleAddr p 0)
  g := pixelByte pm draw (sampleAddr p 1)
  b := pixelByte pm draw (sampleAddr p 2)
  a := pixelByte pm draw (sampleAddr p 3)

end Sys2Proof.Machine
end

