-- ==== Sys2Proof/Machine/Ops.lean ====
section
/-! DEFINITION. The named operations over registers, pixel memory and the ports: clearing a session, recording a failure
(what an ISA calls taking an exception), leaving an end state, presenting a request, emitting progress, returning read
data (10_state.md R43, 60_exceptions.md R203, R209, 30_encoding.md R81, R83). -/

namespace Sys2Proof.Machine

/-- clearSession(): the session registers to their reset values; WIDTH_PX, HEIGHT, BM and pixel memory kept (R43). -/
def clearSession (s : State) : State :=
  { s with
    geometry := 0
    payloadLen := 0
    bytesSent := 0
    cursor := 0
    chunkIdx := 0
    inflight := false
    errCode := .none
    errStage := .none }

/-- fail(code, stage), the failure entry and the only way into FAILED (60_exceptions.md R203). -/
def fail (code : ErrCode) (stage : Stage) (s : State) : State :=
  { s with
    errCode := code
    errStage := stage
    inflight := false
    seqState := .failed }

/-- The return from an end state to IDLE, with the session cleared (R175, R209). -/
def leaveEndState (s : State) : State := { clearSession s with seqState := .idle }

/-- ChanIssue(s): one request is appended to the channel stream (30_encoding.md R81, 20_memory.md R54). -/
def chanIssue (req : WriteReq) (s : State) : State := { s with cs := s.cs ++ [req] }

/-- The outstanding request on the channel port: the last one issued, while INFLIGHT = 1 (R148, 10_state.md R42). -/
def portRequest (s : State) : Option WriteReq := if s.inflight then s.cs.getLast? else none

/-- emit Progress(BYTES_SENT) (30_encoding.md R83). -/
def emitProgress (s : State) : State := { s with progress := s.progress ++ [s.bytesSent] }

/-- Taking the confirmation of the current write of m bytes: INFLIGHT <- 0, BYTES_SENT <- BYTES_SENT + m (R142), and
the record of delivered requests grows by the outstanding one (R148, log 3). -/
def takeConfirmation (m : BitVec 8) (s : State) : State :=
  { s with
    delivered := s.delivered ++ (portRequest s).toList
    inflight := false
    bytesSent := s.bytesSent + m.setWidth 32 }

/-- A host read returns one RDATA word and has no side effect (43_host_interface.md R160). -/
def hostRead (rdata : BitVec 32) (s : State) : State := { s with reads := s.reads ++ [rdata] }

/-- The register map of 10_state.md R36: the word a read of a slot returns. Slots 10 to 63 are reserved and read 0. -/
def registerMap (s : State) (slot : Nat) : BitVec 32 :=
  match slot with
  | 0 => 0
  | 1 => statusWord s
  | 2 => s.widthPx
  | 3 => s.height
  | 4 => s.geometry
  | 5 => s.payloadLen
  | 6 => s.bytesSent
  | 7 => s.cursor
  | 8 => s.chunkIdx
  | 9 => paramsWord
  | _ => 0

/-- The canonical form of pixel memory: addresses strictly rising and inside the 2^35 samples (20_memory.md R50, R52).
An unlisted address reads as no value, so no entry can equal what it reads as (log 9). -/
abbrev Memory.wf (m : Memory) : Prop :=
  m.Pairwise (fun x y => x.1 < y.1) ∧
    ∀ c ∈ m, Config.pmBase ≤ c.1 ∧ c.1 < Config.pmBase + Config.sampleBytes * Config.pmSamples

/-- Write one byte of pixel memory, keeping the addresses in order. -/
def memSet : Memory → Nat → Byte → Memory
  | [], k, v => [(k, v)]
  | (a, b) :: rest, k, v =>
    if k < a then (k, v) :: (a, b) :: rest
    else if k = a then (k, v) :: rest
    else (a, b) :: memSet rest k v

/-- Write the four bytes of sample p, R, G, B, A from the lowest address (20_memory.md R52). -/
def writeSample (pm : Memory) (p : Nat) (x : Sample) : Memory :=
  memSet (memSet (memSet (memSet pm (sampleAddr p 0) x.r) (sampleAddr p 1) x.g) (sampleAddr p 2) x.b) (sampleAddr p 3) x.a

/-- Whether writing this sample changes sample p of pixel memory (70_reset_and_hazards.md R235). -/
def sampleChanges (pm : Memory) (p : Nat) (x : Sample) : Bool :=
  memGet pm (sampleAddr p 0) ≠ some x.r || memGet pm (sampleAddr p 1) ≠ some x.g ||
    memGet pm (sampleAddr p 2) ≠ some x.b || memGet pm (sampleAddr p 3) ≠ some x.a

/-- The steps of several events of one clock cycle: reset beats everything; else the response, then the command
(60_exceptions.md R208, log 16). -/
def arbitrate (reset : Bool) (response : Option (BitVec 1)) (host : Option (BitVec 41)) : List Turn :=
  if reset then [.op (.signal 1)]
  else (response.map (fun ok => Turn.op (.rsp ok))).toList ++ (host.map (fun w => Turn.op (.hb w))).toList

end Sys2Proof.Machine
end

