-- ==== Sys2Proof/Machine/Thresholder.lean ====
section
/-! DEFINITION. TP, the thresholder and bit-packer: INK, PACK8, ENCODE and its inverse law's unpack
(40_thresholder_packer.md R100 to R107). -/

namespace Sys2Proof.Machine

/-- INK: the pixel is ink exactly when the exact 10-bit sum R + G + B is 0; alpha is no input (R100, R101). -/
def ink (x : Sample) : Bool := x.r.setWidth 10 + x.g.setWidth 10 + x.b.setWidth 10 == 0#10

/-- The ink bit of the pixel in row r and column c of an image of width W (R52, R100). -/
def inkAt (pm : Memory) (draw w r c : Nat) : Bool := ink (pixRead pm draw (sampleIndex w r c))

/-- PACK8: bit 7 - k of byte (r, c) is the ink bit of pixel (r, 8c + k); k = 0 is the leftmost pixel (R102, R57). -/
def pack8 (pm : Memory) (draw w r c : Nat) : Byte :=
  (List.range Config.pixelsPerByte).foldl
    (fun b k => if inkAt pm draw w r (Config.pixelsPerByte * c + k) then b ||| (1#8 <<< (7 - k)) else b) 0#8

/-- One row of the bitmap: its WB bytes, left to right (R103). -/
def encodeRow (pm : Memory) (draw w r : Nat) : List Byte :=
  (List.range (w / Config.pixelsPerByte)).map (pack8 pm draw w r)

/-- ENCODE: the rows top to bottom, contiguous, with no row padding (R103). -/
def encodeImage (pm : Memory) (draw w h : Nat) : List Byte :=
  (List.range h).flatMap (encodeRow pm draw w)

/-- unpack(BM, W, H)(r, x) = BM[r × (W/8) + x/8][7 − (x % 8)]; `none` outside BM (R107). -/
def unpackBit (bm : List Byte) (w r x : Nat) : Option Bool :=
  (bm[r * (w / Config.pixelsPerByte) + x / Config.pixelsPerByte]?).map
    (fun b => b.getLsbD (7 - x % Config.pixelsPerByte))

end Sys2Proof.Machine
end

