-- ==== Sys2Proof/Machine/Framer.lean ====
section
/-! DEFINITION. FS, the framer and chunk sequencer: header, trailer, chunks, frame, write schedule and cumulative counts
(41_framer.md R120 to R127), and the reader of a frame (30_encoding.md R79). -/

namespace Sys2Proof.Machine

/-- HDR: the 10 bytes of the header, WIRE_ESC_AT then WIRE_GS_V_0 (R75, R120). -/
def hdr (wb ht : BitVec 16) : List Byte := Config.escAt ++ (Config.gsV0 ++ sizeBytes wb ht)

/-- TRL: the 3 bytes of the trailer (R78, R121). -/
def trl : List Byte := Config.escD0

/-- n = ceil(L / 128), the number of payload chunks (R123). -/
def chunkCount (len : Nat) : Nat := (len + (Config.chunkSize - 1)) / Config.chunkSize

/-- off(k) = 128 k (R124). -/
def chunkOff (k : Nat) : Nat := Config.chunkSize * k

/-- len(k) = min(128, L - 128 k) (R124). -/
def chunkLen (len k : Nat) : Nat := min Config.chunkSize (len - Config.chunkSize * k)

/-- The m bytes of BM from an offset (00_scope.md R8). -/
def bmSlice (bm : List Byte) (off m : Nat) : List Byte := (bm.drop off).take m

/-- chunk(k) = BM[off(k) .. off(k) + len(k)) (R124). -/
def chunk (bm : List Byte) (len k : Nat) : List Byte := bmSlice bm (chunkOff k) (chunkLen len k)

/-- FRAME: the bytes one job delivers when every write is confirmed (R79, R122). -/
def frame (wb ht : BitVec 16) (bm : List Byte) : List Byte := hdr wb ht ++ bm ++ trl

/-- The write schedule of one job: the header, the chunks, the trailer (R126). -/
def sched (wb ht : BitVec 16) (bm : List Byte) (len : Nat) : List (List Byte) :=
  hdr wb ht :: ((List.range (chunkCount len)).map (chunk bm len) ++ [trl])

/-- acc(j): BYTES_SENT after write j of the schedule is confirmed (R127). -/
def acc (len j : Nat) : Nat :=
  if j ≤ chunkCount len then Config.headerLen + min (Config.chunkSize * j) len
  else Config.headerLen + len + Config.trailerLen

/-- The request that carries a byte sequence: LEN is its length (30_encoding.md R81). -/
def requestOf (bytes : List Byte) : WriteReq where
  len := BitVec.ofNat 8 bytes.length
  data := bytes

/-- A reader of the byte stream: the 10 header bytes, then exactly WB × HT payload bytes, then the trailer (R79). -/
def readFrame (bytes : List Byte) : Option (BitVec 16 × BitVec 16 × List Byte) :=
  match decodeHdr (bytes.take 2), decodeHdr ((bytes.drop 2).take 8) with
  | .ok .wireEscAt, .ok (.wireGsV0 wb ht) =>
    let rest := bytes.drop Config.headerLen
    let len := wb.toNat * ht.toNat
    if len ≤ rest.length ∧ rest.drop len = trl then some (wb, ht, rest.take len) else none
  | _, _ => none

end Sys2Proof.Machine
end

