-- ==== Sys2Proof/Machine/Arbiter.lean ====
section
/-! DEFINITION. BA, the transfer sequencer and backpressure arbiter: the current write, ISSUE, the two responses, the
wire commands as the issue step that presents them, and the host's write of pixel memory as it meets a running job
(42_sequencer_arbiter.md R140 to R149, 70_reset_and_hazards.md R235). -/

namespace Sys2Proof.Machine

/-- curLen(), the length of the current write; `none` where it is not defined (R140). -/
def curLen (s : State) : Option (BitVec 8) :=
  match s.seqState with
  | .sendHdr => some (BitVec.ofNat 8 Config.headerLen)
  | .sendChunk =>
    if s.cursor.toNat < s.payloadLen.toNat then
      some (BitVec.ofNat 8 (min Config.chunkSize (s.payloadLen.toNat - s.cursor.toNat)))
    else none
  | .sendTrl => some (BitVec.ofNat 8 Config.trailerLen)
  | .idle => none
  | .done => none
  | .failed => none

/-- curBytes(), the bytes of the current write; `none` where it is not defined or reaches outside BM (R140, R53). -/
def curBytes (s : State) : Option (List Byte) :=
  match s.seqState with
  | .sendHdr => some (hdr (geomWb s) (geomHt s))
  | .sendChunk =>
    match curLen s with
    | none => none
    | some m =>
      if s.cursor.toNat + m.toNat ≤ s.bm.length then some (bmSlice s.bm s.cursor.toNat m.toNat) else none
  | .sendTrl => some trl
  | .idle => none
  | .done => none
  | .failed => none

/-- stageOf(), the stage of the current write; `none` where it is not defined (R140). -/
def stageOf (s : State) : Option Stage :=
  match s.seqState with
  | .sendHdr => some .header
  | .sendChunk => some .payload
  | .sendTrl => some .trailer
  | .idle => none
  | .done => none
  | .failed => none

/-- ISSUE is enabled when STATE is busy and INFLIGHT = 0 (R141, R145). -/
def issueEnabled (s : State) : Bool := isBusy s && !s.inflight

/-- ISSUE: present the current write and set INFLIGHT (R141). A step that is not enabled is not taken. -/
def issueStep (s : State) : Host.Outcome State Fault Refusal :=
  if issueEnabled s then
    match curLen s, curBytes s with
    | some m, some bytes => .next { chanIssue ⟨m, bytes⟩ s with inflight := true }
    | _, _ => .fault .bitmapRange
  else .next s

/-- advance(m), the transition after a confirmation (R144). -/
def advance (m : BitVec 8) (s : State) : State :=
  match s.seqState with
  | .sendHdr => { s with seqState := .sendChunk }
  | .sendChunk =>
    { s with
      cursor := s.cursor + m.setWidth 32
      chunkIdx := s.chunkIdx + 1
      seqState := if s.cursor + m.setWidth 32 = s.payloadLen then .sendTrl else .sendChunk }
  | .sendTrl => { s with seqState := .done }
  | .idle => s
  | .done => s
  | .failed => s

/-- RSP_OK: the outstanding write was confirmed (R142). With INFLIGHT = 0 it is ignored (R149, log 4). -/
def execRspOk (s : State) : Host.Outcome State Fault Refusal :=
  if s.inflight then
    match curLen s with
    | some m => .next (advance m (emitProgress (takeConfirmation m s)))
    | none => .fault .noCurrentWrite
  else .next s

/-- RSP_FAIL: the outstanding write failed (R143, R204). With INFLIGHT = 0 it is ignored (R149, log 4). -/
def execRspFail (s : State) : Host.Outcome State Fault Refusal :=
  if s.inflight then
    match stageOf s with
    | some stage => .next (fail .channelWriteFailed stage { s with inflight := false })
    | none => .fault .noCurrentWrite
  else .next s

/-- WIRE_ESC_AT: the issue step that presents the header, which these bytes open (R75, R120, R141, log 5). -/
def execWireEscAt (s : State) : Host.Outcome State Fault Refusal :=
  if s.seqState = .sendHdr then issueStep s else .next s

/-- WIRE_GS_V_0: the issue step that presents the header closed by this WB and HT, those of GEOMETRY (R76, R120, R141,
log 5). -/
def execWireGsV0 (wb ht : BitVec 16) (s : State) : Host.Outcome State Fault Refusal :=
  if s.seqState = .sendHdr ∧ geomWb s = wb ∧ geomHt s = ht then issueStep s else .next s

/-- WIRE_RASTER_DATA: the issue step that presents the current payload chunk, when these are its bytes (R103, R124,
R141, log 5). -/
def execWireRasterData (bytes : List Byte) (s : State) : Host.Outcome State Fault Refusal :=
  if s.seqState = .sendChunk ∧ (curBytes s = none ∨ curBytes s = some bytes) then issueStep s else .next s

/-- WIRE_ESC_D_0: the issue step that presents the trailer (R78, R121, R141, log 5). -/
def execWireEscD0 (s : State) : Host.Outcome State Fault Refusal :=
  if s.seqState = .sendTrl then issueStep s else .next s

/-- How many payload bytes of the job have been issued: those confirmed, and those in flight (R140, R141). -/
def issuedPayload (s : State) : Nat :=
  match s.seqState with
  | .sendChunk =>
    if s.inflight then s.cursor.toNat + min Config.chunkSize (s.payloadLen.toNat - s.cursor.toNat) else s.cursor.toNat
  | .sendTrl => s.payloadLen.toNat
  | .sendHdr => 0
  | .idle => 0
  | .done => s.payloadLen.toNat
  | .failed => s.payloadLen.toNat

/-- The bitmap byte of a pixel sample: W is a multiple of 8, so sample p lies in byte p / 8 (R52, R77). -/
def sampleByte (p : Nat) : Nat := p / Config.pixelsPerByte

/-- Whether a host write of sample p makes a payload byte any value: a busy job, a changed sample, a byte not yet issued
(70_reset_and_hazards.md R235, log 10). -/
def opensBitmapByte (p : Nat) (x : Sample) (s : State) : Bool :=
  isBusy s && sampleChanges s.pm p x && issuedPayload s ≤ sampleByte p

/-- The HOST writes one sample of pixel memory (10_state.md R39, 20_memory.md R52); during a job, the payload byte of the
changed sample becomes any value if it is not issued yet (R235, I8, log 10). -/
def hostPixelWrite (index : BitVec 35) (x : Sample) (s : State) : State :=
  { s with
    pm := writeSample s.pm index.toNat x
    bm := if opensBitmapByte index.toNat x s then
        s.bm.set (sampleByte index.toNat) (Config.freeBitmapByte s.draws) else s.bm
    draws := s.draws + 1 }

end Sys2Proof.Machine
end

