-- ==== Sys2Proof/Machine/HostInterface.lean ====
section
/-! DEFINITION. The host-bus operations: the reads of the register map, the two register writes, and the commands
(43_host_interface.md R161 to R177). -/

namespace Sys2Proof.Machine

/-- RD_CTRL: RDATA <- 0 (R161). -/
def execRdCtrl (s : State) : Host.Outcome State Fault Refusal := .next (hostRead 0 s)

/-- RD_STATUS: RDATA <- the STATUS view (R162). -/
def execRdStatus (s : State) : Host.Outcome State Fault Refusal := .next (hostRead (statusWord s) s)

/-- RD_WIDTH_PX (R163). -/
def execRdWidthPx (s : State) : Host.Outcome State Fault Refusal := .next (hostRead s.widthPx s)

/-- RD_HEIGHT (R164). -/
def execRdHeight (s : State) : Host.Outcome State Fault Refusal := .next (hostRead s.height s)

/-- RD_GEOMETRY (R165). -/
def execRdGeometry (s : State) : Host.Outcome State Fault Refusal := .next (hostRead s.geometry s)

/-- RD_PAYLOAD_LEN (R166). -/
def execRdPayloadLen (s : State) : Host.Outcome State Fault Refusal := .next (hostRead s.payloadLen s)

/-- RD_BYTES_SENT (R167). -/
def execRdBytesSent (s : State) : Host.Outcome State Fault Refusal := .next (hostRead s.bytesSent s)

/-- RD_CURSOR (R168). -/
def execRdCursor (s : State) : Host.Outcome State Fault Refusal := .next (hostRead s.cursor s)

/-- RD_CHUNK_IDX (R169). -/
def execRdChunkIdx (s : State) : Host.Outcome State Fault Refusal := .next (hostRead s.chunkIdx s)

/-- RD_PARAMS (R170). -/
def execRdParams (s : State) : Host.Outcome State Fault Refusal := .next (hostRead paramsWord s)

/-- RD_RSVD: a reserved slot reads 0 (R177). -/
def execRdRsvd (_slot : BitVec 6) (s : State) : Host.Outcome State Fault Refusal := .next (hostRead 0 s)

/-- CMD_NOP: no effect (R173). -/
def execCmdNop (s : State) : Host.Outcome State Fault Refusal := .next s

/-- W >> 3 > 65535 or H > 65535 (60_exceptions.md R202). -/
def dimensionsOverflow (w h : BitVec 32) : Bool :=
  Config.fieldMax < (widthBytes w).toNat || Config.fieldMax < h.toNat

/-- W = 0, H = 0 or W[2:0] ≠ 0 (60_exceptions.md R201). -/
def dimensionsInvalid (w h : BitVec 32) : Bool :=
  w = 0 || h = 0 || w.extractLsb' 0 3 ≠ 0

/-- The accepted start of a job: latch GEOMETRY and PAYLOAD_LEN, take the snapshot of pixel memory into BM, enter
SEND_HDR (R174). -/
def beginJob (w h : BitVec 32) (s : State) : State :=
  { s with
    geometry := geometryOf (widthBytes w) h
    payloadLen := BitVec.ofNat 32 ((widthBytes w).toNat * h.toNat)
    bm := encodeImage s.pm s.draws w.toNat h.toNat
    draws := s.draws + 1
    seqState := .sendHdr }

/-- CMD_START outside a busy job: clear the session, then the overflow check, the validity check, or the job (R174,
R207). -/
def startJob (s : State) : State :=
  if dimensionsOverflow s.widthPx s.height then fail .dimensionOverflow .none (clearSession s)
  else if dimensionsInvalid s.widthPx s.height then fail .invalidDimensions .none (clearSession s)
  else beginJob s.widthPx s.height (clearSession s)

/-- CMD_START: ignored while busy (R174). -/
def execCmdStart (s : State) : Host.Outcome State Fault Refusal :=
  if isBusy s then .next s else .next (startJob s)

/-- CMD_CLEAR: leave an end state; no effect in IDLE, ignored while busy (R175). -/
def execCmdClear (s : State) : Host.Outcome State Fault Refusal :=
  if jobEnd s then .next (leaveEndState s) else .next s

/-- CMD_RSVD: no effect (R176). -/
def execCmdRsvd (_cmd : BitVec 4) (s : State) : Host.Outcome State Fault Refusal := .next s

/-- WR_WIDTH_PX: every value is stored (R171). -/
def execWrWidthPx (value : BitVec 32) (s : State) : Host.Outcome State Fault Refusal :=
  .next { s with widthPx := value }

/-- WR_HEIGHT: every value is stored (R172). -/
def execWrHeight (value : BitVec 32) (s : State) : Host.Outcome State Fault Refusal :=
  .next { s with height := value }

/-- WR_IGNORED: changes nothing (R177). -/
def execWrIgnored (_slot : BitVec 6) (s : State) : Host.Outcome State Fault Refusal := .next s

end Sys2Proof.Machine
end

