-- ==== Sys2Proof/Machine/ResetSignal.lean ====
section
/-! DEFINITION. The RESET signal (70_reset_and_hazards.md R230, R231). -/

namespace Sys2Proof.Machine

/-- reset(): every piece of PTX's state to its value in 10_state.md R42; pixel memory, and what the channel and the host
have already received, are untouched (R230). BM becomes any value (R42, I9, log 8). -/
def resetBlock (s : State) : State :=
  { clearSession s with
    seqState := .idle
    widthPx := 0
    height := 0
    bm := Config.freeBitmap s.draws
    draws := s.draws + 1 }

/-- RESET: taken in every state (R230). -/
def execReset (s : State) : Host.Outcome State Fault Refusal := .next (resetBlock s)

end Sys2Proof.Machine
end

