-- ==== Sys2Proof/Machine/Dispatch.lean ====
section
/-! DEFINITION. exec: one arm for each operation of 30_encoding.md R84. -/

namespace Sys2Proof.Machine

def exec (i : Instr) (s : State) : Host.Outcome State Fault Refusal :=
  match i with
  -- host-bus reads (R161 to R170, R177)
  | .rdCtrl => Sys2Proof.Machine.execRdCtrl s
  | .rdStatus => Sys2Proof.Machine.execRdStatus s
  | .rdWidthPx => Sys2Proof.Machine.execRdWidthPx s
  | .rdHeight => Sys2Proof.Machine.execRdHeight s
  | .rdGeometry => Sys2Proof.Machine.execRdGeometry s
  | .rdPayloadLen => Sys2Proof.Machine.execRdPayloadLen s
  | .rdBytesSent => Sys2Proof.Machine.execRdBytesSent s
  | .rdCursor => Sys2Proof.Machine.execRdCursor s
  | .rdChunkIdx => Sys2Proof.Machine.execRdChunkIdx s
  | .rdParams => Sys2Proof.Machine.execRdParams s
  | .rdRsvd slot => Sys2Proof.Machine.execRdRsvd slot s
  -- commands (R173 to R176)
  | .cmdNop => Sys2Proof.Machine.execCmdNop s
  | .cmdStart => Sys2Proof.Machine.execCmdStart s
  | .cmdClear => Sys2Proof.Machine.execCmdClear s
  | .cmdRsvd cmd => Sys2Proof.Machine.execCmdRsvd cmd s
  -- host-bus writes (R171, R172, R177)
  | .wrWidthPx value => Sys2Proof.Machine.execWrWidthPx value s
  | .wrHeight value => Sys2Proof.Machine.execWrHeight value s
  | .wrIgnored slot => Sys2Proof.Machine.execWrIgnored slot s
  -- channel responses (R142, R143)
  | .rspOk => Sys2Proof.Machine.execRspOk s
  | .rspFail => Sys2Proof.Machine.execRspFail s
  -- the reset signal (R230)
  | .reset => Sys2Proof.Machine.execReset s
  -- wire commands (R75, R103, R120, R121)
  | .wireEscAt => Sys2Proof.Machine.execWireEscAt s
  | .wireGsV0 wb ht => Sys2Proof.Machine.execWireGsV0 wb ht s
  | .wireRasterData chunk => Sys2Proof.Machine.execWireRasterData chunk s
  | .wireEscD0 => Sys2Proof.Machine.execWireEscD0 s

end Sys2Proof.Machine
end

