-- ==== Sys2Proof/Machine/Turns.lean ====
section
/-! DEFINITION. The step of one agent, and the step taken when no agent is scheduled (00_scope.md R10, log 1, log 2). -/

namespace Sys2Proof.Machine

/-- An operation that arrives as bits: decoded and executed, or refused by name when it is no row of the table (log 15). -/
def rawStep (raw : RawOp) (s : State) : Host.Outcome State Fault Refusal :=
  match decode raw with
  | .ok i => exec i s
  | .error why => .refused (.undecodable why)

/-- The step of one agent (R10): an operation on its port, the BLOCK's issue step (R141), the HOST's write of pixel
memory (R39), or the events of one cycle put in their order before the rest of the agenda (R208). -/
def turnStep (t : Turn) (s : State) : Host.Outcome State Fault Refusal :=
  match t with
  | .op raw => rawStep raw s
  | .block => issueStep s
  | .pixel index sample => .next (hostPixelWrite index sample s)
  | .together reset response host => .next { s with agenda := arbitrate reset response host ++ s.agenda }

/-- With no agent scheduled the BLOCK acts, the one agent that acts of itself (R141, log 2). -/
def idleStep (s : State) : Host.Outcome State Fault Refusal := issueStep s

/-- The operation of a table word put first on the agenda. -/
def scheduleWord (s : State) (nbits w : Nat) : State :=
  match rawOfTableWord nbits w with
  | some raw => { s with agenda := .op raw :: s.agenda }
  | none => s

end Sys2Proof.Machine
end

