-- ==== Sys2Proof/Machine/Step.lean ====
section
/-! DEFINITION. One step of the system: the next agent of the agenda takes its step (00_scope.md R10, log 1). -/

namespace Sys2Proof.Machine

/-- One step: the turn at the head of the agenda is taken off and run; with an empty agenda, the idle step (log 2). -/
def step (s : State) : Host.Outcome State Fault Refusal :=
  match s.agenda with
  | [] => idleStep s
  | t :: rest => turnStep t { s with agenda := rest }

/-- s with the table word's operation first on the agenda, where step takes its next operation (log 1, log 6). -/
def State.withFetchWord (s : State) (nbits w : Nat) : State := scheduleWord s nbits w

end Sys2Proof.Machine
end

