-- ==== Sys2Proof/Safety.lean ====
section
/-! DEFINITION. What a sound state of PTX is: the session table of 10_state.md R37, the bitmap's length (R53), the
canonical form of pixel memory, and the schedule and progress laws of 42_sequencer_arbiter.md R147 and R152 on the
recorded streams. -/

namespace Sys2Proof.Machine

/-- "Valid" in R37: WB ≥ 1, HT ≥ 1 and L = WB × HT. -/
def ValidGeometry (s : State) : Prop :=
  1 ≤ (geomWb s).toNat ∧ 1 ≤ (geomHt s).toNat ∧ s.payloadLen.toNat = (geomWb s).toNat * (geomHt s).toNat

/-- CHUNK_IDX, CURSOR and BYTES_SENT hold these numbers. -/
def Counters (s : State) (idx cur sent : Nat) : Prop :=
  s.chunkIdx.toNat = idx ∧ s.cursor.toNat = cur ∧ s.bytesSent.toNat = sent

/-- No job: GEOMETRY, PAYLOAD_LEN and the counters are 0 (R37, rows IDLE and FAILED (validation)). -/
def NoSession (s : State) : Prop := s.geometry = 0 ∧ s.payloadLen = 0 ∧ Counters s 0 0 0

/-- The registers of R37's row SEND_HDR. -/
def HeaderRow (s : State) : Prop := ValidGeometry s ∧ Counters s 0 0 0

/-- The registers of R37's row SEND_CHUNK: i < n, CURSOR = 128 i < L, BYTES_SENT = 10 + 128 i. -/
def ChunkRow (s : State) : Prop :=
  ValidGeometry s ∧ s.chunkIdx.toNat < chunkCount s.payloadLen.toNat ∧
    Config.chunkSize * s.chunkIdx.toNat < s.payloadLen.toNat ∧
    Counters s s.chunkIdx.toNat (Config.chunkSize * s.chunkIdx.toNat)
      (Config.headerLen + Config.chunkSize * s.chunkIdx.toNat)

/-- The registers of R37's row SEND_TRL. -/
def TrailerRow (s : State) : Prop :=
  ValidGeometry s ∧ Counters s (chunkCount s.payloadLen.toNat) s.payloadLen.toNat
    (Config.headerLen + s.payloadLen.toNat)

/-- The registers of R37's row DONE. -/
def DoneRow (s : State) : Prop :=
  ValidGeometry s ∧ Counters s (chunkCount s.payloadLen.toNat) s.payloadLen.toNat
    (Config.headerLen + s.payloadLen.toNat + Config.trailerLen)

/-- No failure is recorded. -/
def NoError (s : State) : Prop := s.errCode = .none ∧ s.errStage = .none

/-- R37's rows for FAILED: after validation, or after a channel failure with the registers of the state that failed. -/
def FailedRow (s : State) : Prop :=
  (NoSession s ∧ (s.errCode = .invalidDimensions ∨ s.errCode = .dimensionOverflow) ∧ s.errStage = .none) ∨
  (s.errCode = .channelWriteFailed ∧
    ((s.errStage = .header ∧ HeaderRow s) ∨ (s.errStage = .payload ∧ ChunkRow s) ∨
      (s.errStage = .trailer ∧ TrailerRow s)))

/-- The table of 10_state.md R37: the row of the current STATE. -/
def SessionRow (s : State) : Prop :=
  match s.seqState with
  | .idle => NoSession s ∧ NoError s ∧ s.inflight = false
  | .sendHdr => HeaderRow s ∧ NoError s
  | .sendChunk => ChunkRow s ∧ NoError s
  | .sendTrl => TrailerRow s ∧ NoError s
  | .done => DoneRow s ∧ NoError s ∧ s.inflight = false
  | .failed => FailedRow s ∧ s.inflight = false

/-- How many writes of the current job have been confirmed (R147): none before the header's confirmation, then the
header and CHUNK_IDX chunks, then the trailer. -/
def writesConfirmed (s : State) : Nat :=
  match s.seqState with
  | .idle => 0
  | .sendHdr => 0
  | .sendChunk => 1 + s.chunkIdx.toNat
  | .sendTrl => 1 + s.chunkIdx.toNat
  | .done => 2 + s.chunkIdx.toNat
  | .failed =>
    match s.errStage with
    | .none => 0
    | .header => 0
    | .payload => 1 + s.chunkIdx.toNat
    | .trailer => 1 + s.chunkIdx.toNat

/-- A channel failure is recorded: its failed write was issued and not confirmed. -/
def channelFailed (s : State) : Bool := s.seqState = .failed && s.errCode = .channelWriteFailed

/-- How many writes of the current job have been issued: those confirmed, and one that is in flight or failed. -/
def writesIssued (s : State) : Nat := writesConfirmed s + if s.inflight || channelFailed s then 1 else 0

/-- Whether the registers and BM describe a job. -/
def holdsJob (s : State) : Bool := isBusy s || s.seqState = .done || channelFailed s

/-- The write requests of the current job's schedule (R126). -/
def jobRequests (s : State) : List WriteReq :=
  (sched (geomWb s) (geomHt s) s.bm s.payloadLen.toNat).map requestOf

/-- The progress values of the first k writes of a job: acc(0), …, acc(k − 1) (R127, R152). -/
def accPrefix (s : State) (k : Nat) : List (BitVec 32) :=
  (List.range k).map (fun j => BitVec.ofNat 32 (acc s.payloadLen.toNat j))

/-- A sound state. Every step keeps it and reset has it; the statements about it are in the obligations. -/
structure Sound (s : State) : Prop where
  /-- The session registers satisfy the row of the current STATE (R37). -/
  session : SessionRow s
  /-- BM holds PAYLOAD_LEN bytes while there is a job (R53). -/
  bitmap : holdsJob s = true → s.bm.length = s.payloadLen.toNat
  /-- Pixel memory is in canonical form (R52). -/
  pixels : Memory.wf s.pm
  /-- The channel stream ends with the writes of the current job issued so far, in the order of the schedule (R147). -/
  issued : ∃ before, s.cs = before ++ (jobRequests s).take (writesIssued s)
  /-- The delivered stream ends with the writes of the current job confirmed so far (R58, R147). -/
  confirmed : ∃ before, s.delivered = before ++ (jobRequests s).take (writesConfirmed s)
  /-- The progress stream ends with acc(0), … of the writes confirmed so far (R152). -/
  reported : ∃ before, s.progress = before ++ accPrefix s (writesConfirmed s)

/-- A step that does not stop with a fault. -/
def NoFault (s : State) : Prop := ∀ r : Fault, step s ≠ .fault r

end Sys2Proof.Machine
end

