-- ==== Sys2Proof/Certificates/Slice0/Obligations.lean ====
section
/-! DEFINITION. The statements for the provers: what the rules of spec/ say PTX does, and the model's own laws. The
first definitions are the shapes several statements share. -/

open Sys2Proof Sys2Proof.Machine

/-! ### Shapes -/

/-- A host read of a slot, whatever ADDR[1:0] and WDATA are, decodes to `i`, and `i` returns the word `v s` as RDATA and
changes nothing else. -/
def Sys2Proof.Claims.ReadsAs (slot : BitVec 6) (i : Instr) (v : State → BitVec 32) : Prop :=
  ∀ (s : State) (low : BitVec 2) (wdata : BitVec 32),
    decode (.hb (hbTransaction 0 slot low wdata)) = .ok i ∧
      exec i s = .next { s with reads := s.reads ++ [v s] }

/-- `s` with its session registers cleared as clearSession does, in the given STATE, with the given failure recorded. -/
def Sys2Proof.Claims.cleared (s : State) (q : SeqState) (code : ErrCode) : State :=
  { s with
    seqState := q, geometry := 0, payloadLen := 0, bytesSent := 0, cursor := 0, chunkIdx := 0
    inflight := false, errCode := code, errStage := .none }

/-- STATE and the eight session registers are the same in both states. -/
def Sys2Proof.Claims.SameSession (s t : State) : Prop :=
  t.seqState = s.seqState ∧ t.geometry = s.geometry ∧ t.payloadLen = s.payloadLen ∧ t.bytesSent = s.bytesSent ∧
    t.cursor = s.cursor ∧ t.chunkIdx = s.chunkIdx ∧ t.inflight = s.inflight ∧ t.errCode = s.errCode ∧
    t.errStage = s.errStage

/-- The next turn of the agenda, the model's schedule (log 1), is the operation `i`. -/
def Sys2Proof.Claims.NextIs (s : State) (i : Instr) : Prop :=
  ∃ raw rest, s.agenda = .op raw :: rest ∧ decode raw = .ok i

/-- The next turn of the agenda is a host write of pixel memory. -/
def Sys2Proof.Claims.NextIsPixelWrite (s : State) : Prop :=
  ∃ p x rest, s.agenda = .pixel p x :: rest

/-- The length of the current payload chunk, min(128, PAYLOAD_LEN − CURSOR), as a number (42_sequencer_arbiter.md R140). -/
def Sys2Proof.Claims.chunkBytes (s : State) : Nat := min 128 (s.payloadLen.toNat - s.cursor.toNat)

/-- `s` after the issue step presented a request: LEN and DATA appended to the channel stream, INFLIGHT set. -/
def Sys2Proof.Claims.issued (s : State) (len : BitVec 8) (data : List Byte) : State :=
  { s with cs := s.cs ++ [⟨len, data⟩], inflight := true }

/-- The ten header bytes, from the numbers of GEOMETRY (41_framer.md R120). -/
def Sys2Proof.Claims.headerBytes (wb ht : Nat) : List Byte :=
  [0x1B, 0x40, 0x1D, 0x76, 0x30, 0x00, BitVec.ofNat 8 (wb % 256), BitVec.ofNat 8 (wb / 256),
    BitVec.ofNat 8 (ht % 256), BitVec.ofNat 8 (ht / 256)]

open Sys2Proof.Claims

/-! ### Host interface -/

/-- R161, R170: CTRL reads 0 and PARAMS reads 0x00030A80, in every state. -/
def Obligations.ConstantRegistersRead : Prop :=
  ReadsAs 0 .rdCtrl (fun _ => 0) ∧ ReadsAs 9 .rdParams (fun _ => 0x00030A80#32)

/-- R163, R164, R171, R172: WIDTH_PX and HEIGHT store every value written, change nothing else, and read back exactly
the last value written. -/
def Obligations.ConfigRegistersReadBackAsWritten : Prop :=
  ReadsAs 2 .rdWidthPx (·.widthPx) ∧ ReadsAs 3 .rdHeight (·.height) ∧
    ∀ (s : State) (low : BitVec 2) (v : BitVec 32),
      decode (.hb (hbTransaction 1 2 low v)) = .ok (.wrWidthPx v) ∧
      exec (.wrWidthPx v) s = .next { s with widthPx := v } ∧
      exec .rdWidthPx { s with widthPx := v } = .next { s with widthPx := v, reads := s.reads ++ [v] } ∧
      decode (.hb (hbTransaction 1 3 low v)) = .ok (.wrHeight v) ∧
      exec (.wrHeight v) s = .next { s with height := v } ∧
      exec .rdHeight { s with height := v } = .next { s with height := v, reads := s.reads ++ [v] }

/-- R165, R166, R168, R169, and the read of R167: the session registers read their value, and in a sound state that
value is what the rules' corner cases say. -/
def Obligations.SessionRegistersRead : Prop :=
  ReadsAs 4 .rdGeometry (·.geometry) ∧ ReadsAs 5 .rdPayloadLen (·.payloadLen) ∧
  ReadsAs 6 .rdBytesSent (·.bytesSent) ∧ ReadsAs 7 .rdCursor (·.cursor) ∧ ReadsAs 8 .rdChunkIdx (·.chunkIdx) ∧
    ∀ s : State, Sound s →
      ((s.seqState = .idle ∨ (s.seqState = .failed ∧ s.errCode ≠ .channelWriteFailed)) → s.geometry = 0) ∧
      s.geometry = geomHt s ++ geomWb s ∧
      s.payloadLen.toNat ≤ 0xFFFE0001 ∧
      ((s.seqState = .sendChunk ∨ s.seqState = .sendTrl) → s.cursor.toNat + 10 = s.bytesSent.toNat) ∧
      ((s.seqState = .sendTrl ∨ s.seqState = .done) → s.chunkIdx.toNat = (s.payloadLen.toNat + 127) / 128)

/-- R33, R40, R162: STATUS packs END, BUSY, INFLIGHT, ERR_STAGE, ERR_CODE and STATE as the table says, BUSY and END are
the level outputs, the read returns that word, and it has the values of R162's corner cases. -/
def Obligations.StatusReadsItsFields : Prop :=
  ReadsAs 1 .rdStatus statusWord ∧
    ∀ s : State,
      (statusWord s).extractLsb' 0 4 = seqCode s.seqState ∧ (statusWord s).extractLsb' 4 4 = errBits s.errCode ∧
      (statusWord s).extractLsb' 8 2 = stageBits s.errStage ∧ (statusWord s).getLsbD 10 = s.inflight ∧
      (statusWord s).getLsbD 11 = isBusy s ∧ (statusWord s).getLsbD 12 = jobEnd s ∧
      (statusWord s).extractLsb' 13 19 = 0 ∧
      (isBusy s = true ↔ s.seqState = .sendHdr ∨ s.seqState = .sendChunk ∨ s.seqState = .sendTrl) ∧
      (jobEnd s = true ↔ s.seqState = .done ∨ s.seqState = .failed) ∧
      (NoError s → s.seqState = .sendHdr → s.inflight = true → statusWord s = 0xC01) ∧
      (NoError s → s.seqState = .done → s.inflight = false → statusWord s = 0x1004) ∧
      (s.seqState = .failed → s.errCode = .channelWriteFailed → s.errStage = .header → s.inflight = false →
        statusWord s = 0x1135) ∧
      statusWord State.reset = 0 ∧ isBusy State.reset = false ∧ jobEnd State.reset = false

/-- R22, R32, R200: the codes of STATE, ERR_CODE and ERR_STAGE. -/
def Obligations.RegisterCodesAreTheTables : Prop :=
  [SeqState.idle, .sendHdr, .sendChunk, .sendTrl, .done, .failed].map seqCode = [0, 1, 2, 3, 4, 5] ∧
  [ErrCode.none, .invalidDimensions, .dimensionOverflow, .channelWriteFailed].map errBits = [0, 1, 2, 3] ∧
  [Stage.none, .header, .payload, .trailer].map stageBits = [0, 1, 2, 3]

/-- R177: a read of a reserved slot returns 0, and a write to STATUS, a read-only register or a reserved slot changes
nothing, whatever the ignored bits are. -/
def Obligations.ReservedSlotsReadZeroAndIgnoreWrites : Prop :=
  ∀ (s : State) (slot : BitVec 6) (low : BitVec 2) (wdata : BitVec 32),
    (10 ≤ slot.toNat →
      decode (.hb (hbTransaction 0 slot low wdata)) = .ok (.rdRsvd slot) ∧
      exec (.rdRsvd slot) s = .next { s with reads := s.reads ++ [0] }) ∧
    ((slot.toNat = 1 ∨ 4 ≤ slot.toNat) →
      decode (.hb (hbTransaction 1 slot low wdata)) = .ok (.wrIgnored slot) ∧
      exec (.wrIgnored slot) s = .next s)

/-- R73, R173, R176: the command is WDATA[3:0] alone; NOP and the reserved codes change nothing in every state. -/
def Obligations.CommandsDecodeByLowFourBits : Prop :=
  ∀ (s : State) (low : BitVec 2) (upper : BitVec 28) (cmd : BitVec 4),
    decode (.hb (hbTransaction 1 0 low (upper ++ cmd))) =
      .ok (if cmd = 0 then .cmdNop else if cmd = 1 then .cmdStart else if cmd = 2 then .cmdClear else .cmdRsvd cmd) ∧
    exec .cmdNop s = .next s ∧ exec (.cmdRsvd cmd) s = .next s

/-- R174, R201, R202, R207: START is ignored while busy; otherwise it clears the session and records
DIMENSION_OVERFLOW, else INVALID_DIMENSIONS, else latches the geometry, takes the bitmap from pixel memory and enters
SEND_HDR. A rejected START changes neither BM nor the channel stream. The counter of free values is the model's own and
is left open (log 11). -/
def Obligations.StartValidatesThenBegins : Prop :=
  ∀ s : State,
    if isBusy s = true then exec .cmdStart s = .next s
    else if 524288 ≤ s.widthPx.toNat ∨ 65535 < s.height.toNat then
      exec .cmdStart s = .next (cleared s .failed .dimensionOverflow)
    else if s.widthPx.toNat = 0 ∨ s.height.toNat = 0 ∨ s.widthPx.toNat % 8 ≠ 0 then
      exec .cmdStart s = .next (cleared s .failed .invalidDimensions)
    else
      ∃ t, exec .cmdStart s = .next t ∧
        t = { cleared s .sendHdr .none with
              geometry := BitVec.ofNat 32 (s.height.toNat * 65536 + s.widthPx.toNat / 8)
              payloadLen := t.payloadLen
              bm := encodeImage s.pm s.draws s.widthPx.toNat s.height.toNat
              draws := t.draws } ∧
        t.payloadLen.toNat = s.widthPx.toNat / 8 * s.height.toNat

/-- R175: CLEAR returns an end state to IDLE with the session cleared; in IDLE and while busy it changes nothing. -/
def Obligations.ClearLeavesEndStatesOnly : Prop :=
  ∀ s : State,
    ((s.seqState = .done ∨ s.seqState = .failed) → exec .cmdClear s = .next (cleared s .idle .none)) ∧
    (¬(s.seqState = .done ∨ s.seqState = .failed) → exec .cmdClear s = .next s)

/-- R36, R60, R160: every host-bus word runs in every state, and a read returns the register map's word of its slot and
has no other effect. -/
def Obligations.HostAccessIsNeverRefused : Prop :=
  ∀ (s : State) (w : BitVec 41) (rest : List Turn), s.agenda = .op (.hb w) :: rest →
    (∃ t, step s = .next t) ∧
    (w.getLsbD 40 = false →
      step s = .next { s with agenda := rest, reads := s.reads ++ [registerMap s (w.extractLsb' 34 6).toNat] })

/-- R59: the byte lanes of a register word are little-endian: lane k carries bits 8k to 8k + 7, and the four lanes, lane 3
highest, are the word. -/
def Obligations.ByteLanesAreLittleEndian : Prop :=
  ∀ w : Word,
    (∀ k i, k < 4 → i < 8 → (byteLane k w).getLsbD i = w.getLsbD (8 * k + i)) ∧
    w = byteLane 3 w ++ (byteLane 2 w ++ (byteLane 1 w ++ byteLane 0 w))

/-! ### Channel responses and the issue step -/

/-- R142, R144: a confirmation clears INFLIGHT, adds the length of the current write to BYTES_SENT, emits that count,
and advances the sequencer; nothing else changes (the record of delivered requests is the model's own, log 3). -/
def Obligations.RspOkConfirmsCurrentWrite : Prop :=
  ∀ s : State, decode (.rsp 1) = .ok .rspOk ∧ (s.inflight = true →
    (s.seqState = .sendHdr → exec .rspOk s = .next { s with
      inflight := false, bytesSent := s.bytesSent + 10, progress := s.progress ++ [s.bytesSent + 10]
      delivered := s.delivered ++ s.cs.getLast?.toList, seqState := .sendChunk }) ∧
    (s.seqState = .sendChunk → s.cursor.toNat < s.payloadLen.toNat → exec .rspOk s = .next { s with
      inflight := false, bytesSent := s.bytesSent + BitVec.ofNat 32 (chunkBytes s)
      progress := s.progress ++ [s.bytesSent + BitVec.ofNat 32 (chunkBytes s)]
      delivered := s.delivered ++ s.cs.getLast?.toList
      cursor := BitVec.ofNat 32 (s.cursor.toNat + chunkBytes s), chunkIdx := s.chunkIdx + 1
      seqState := if s.cursor.toNat + chunkBytes s = s.payloadLen.toNat then .sendTrl else .sendChunk }) ∧
    (s.seqState = .sendTrl → exec .rspOk s = .next { s with
      inflight := false, bytesSent := s.bytesSent + 3, progress := s.progress ++ [s.bytesSent + 3]
      delivered := s.delivered ++ s.cs.getLast?.toList, seqState := .done }))

/-- R143, R204: a failed write records CHANNEL_WRITE_FAILED with its stage, enters FAILED, clears INFLIGHT and changes
nothing else: no count and no progress event. -/
def Obligations.RspFailRecordsItsStage : Prop :=
  ∀ (s : State), decode (.rsp 0) = .ok .rspFail ∧
    ∀ stage, s.inflight = true →
      (s.seqState = .sendHdr ∧ stage = .header) ∨ (s.seqState = .sendChunk ∧ stage = .payload) ∨
        (s.seqState = .sendTrl ∧ stage = .trailer) →
      exec .rspFail s = .next { s with
        inflight := false, errCode := .channelWriteFailed, errStage := stage, seqState := .failed }

/-- The hardware side of R149 (the model's choice of log 4): a response while no write is outstanding changes nothing. -/
def Obligations.ResponseWithoutWriteIsIgnored : Prop :=
  ∀ s : State, s.inflight = false → exec .rspOk s = .next s ∧ exec .rspFail s = .next s

/-- R141: the BLOCK's turn presents the current write and sets INFLIGHT when STATE is busy and INFLIGHT is 0. R141 enables
no issue step in any other state; that a block turn may stand there all the same, and then changes nothing but the agenda,
is the model's choice of log 2. -/
def Obligations.BlockIssuesTheCurrentWrite : Prop :=
  ∀ (s : State) (rest : List Turn), s.agenda = .block :: rest →
    (isBusy s = false ∨ s.inflight = true → step s = .next { s with agenda := rest }) ∧
    (s.inflight = false →
      (s.seqState = .sendHdr → step s = .next (issued { s with agenda := rest } 10
        (headerBytes (geomWb s).toNat (geomHt s).toNat))) ∧
      (s.seqState = .sendChunk → s.cursor.toNat < s.payloadLen.toNat →
        s.cursor.toNat + chunkBytes s ≤ s.bm.length →
        step s = .next (issued { s with agenda := rest } (BitVec.ofNat 8 (chunkBytes s))
          ((s.bm.drop s.cursor.toNat).take (chunkBytes s)))) ∧
      (s.seqState = .sendTrl → step s = .next (issued { s with agenda := rest } 3 [0x1B, 0x64, 0x00])))

/-- The model's choice of log 5: a wire command of the opcode table, due in this state with these operands, is the issue
step that presents its write. -/
def Obligations.WireCommandsPresentTheirWrite : Prop :=
  ∀ s : State, s.inflight = false →
    (s.seqState = .sendHdr →
      exec .wireEscAt s = .next (issued s 10 (headerBytes (geomWb s).toNat (geomHt s).toNat)) ∧
      exec (.wireGsV0 (geomWb s) (geomHt s)) s =
        .next (issued s 10 (headerBytes (geomWb s).toNat (geomHt s).toNat))) ∧
    (s.seqState = .sendChunk → s.cursor.toNat < s.payloadLen.toNat →
      s.cursor.toNat + chunkBytes s ≤ s.bm.length →
      exec (.wireRasterData ((s.bm.drop s.cursor.toNat).take (chunkBytes s))) s =
        .next (issued s (BitVec.ofNat 8 (chunkBytes s)) ((s.bm.drop s.cursor.toNat).take (chunkBytes s)))) ∧
    (s.seqState = .sendTrl → exec .wireEscD0 s = .next (issued s 3 [0x1B, 0x64, 0x00]))

/-- The model's choice of log 5: a wire command that is not due changes nothing: the block does not present it. -/
def Obligations.WireCommandNotDueChangesNothing : Prop :=
  ∀ s : State,
    (¬(s.seqState = .sendHdr ∧ s.inflight = false) → exec .wireEscAt s = .next s) ∧
    (∀ wb ht, ¬(s.seqState = .sendHdr ∧ s.inflight = false ∧ geomWb s = wb ∧ geomHt s = ht) →
      exec (.wireGsV0 wb ht) s = .next s) ∧
    (∀ bytes, ¬(s.seqState = .sendChunk ∧ s.inflight = false) → exec (.wireRasterData bytes) s = .next s) ∧
    (∀ bytes due, curBytes s = some due → due ≠ bytes → exec (.wireRasterData bytes) s = .next s) ∧
    (¬(s.seqState = .sendTrl ∧ s.inflight = false) → exec .wireEscD0 s = .next s)

/-- R145: a step presents at most one request, and only while none is outstanding; in a sound state INFLIGHT returns to
0 only by a response or by reset. -/
def Obligations.OneWriteOutstanding : Prop :=
  ∀ s t : State, step s = .next t →
    (t.cs = s.cs ∨ (s.inflight = false ∧ t.inflight = true ∧ ∃ req, t.cs = s.cs ++ [req])) ∧
    (Sound s → s.inflight = true → t.inflight = false → NextIs s .rspOk ∨ NextIs s .rspFail ∨ NextIs s .reset)

/-- R54, R81: the channel stream is append-only, and in a sound state every request presented carries 1 to 128 bytes and
LEN is their number. -/
def Obligations.ChannelStreamIsAppendOnly : Prop :=
  ∀ s t : State, step s = .next t →
    ∃ new, t.cs = s.cs ++ new ∧ new.length ≤ 1 ∧
      (Sound s → ∀ req ∈ new, req.len.toNat = req.data.length ∧ 1 ≤ req.data.length ∧ req.data.length ≤ 128)

/-- R83: a step emits a progress event exactly when it takes the confirmation of an outstanding write, one event, with
the new BYTES_SENT. -/
def Obligations.ProgressOncePerConfirmation : Prop :=
  ∀ s t : State, step s = .next t →
    (NextIs s .rspOk ∧ s.inflight = true → t.progress = s.progress ++ [t.bytesSent]) ∧
    (¬(NextIs s .rspOk ∧ s.inflight = true) → t.progress = s.progress)

/-- R27: BYTES_SENT changes only when a write is confirmed, by that write's length and without wrapping, or when START,
CLEAR or reset clears the session. The delivered stream is the model's record (log 3). -/
def Obligations.BytesSentCountsConfirmedBytes : Prop :=
  ∀ s t : State, step s = .next t → t.bytesSent ≠ s.bytesSent →
    (t.bytesSent = 0 ∧ (NextIs s .cmdStart ∨ NextIs s .cmdClear ∨ NextIs s .reset)) ∨
    (NextIs s .rspOk ∧ (Sound s → ∃ req, s.cs.getLast? = some req ∧ t.delivered = s.delivered ++ [req] ∧
      t.bytesSent.toNat = s.bytesSent.toNat + req.data.length))

/-! ### Thresholder, packer and framer -/

/-- R100, R101: a pixel is ink exactly when the exact sum of R, G and B is 0; alpha does not matter. -/
def Obligations.InkIsTheExactZeroSum : Prop :=
  ∀ (r g b a : Byte), ink ⟨r, g, b, a⟩ = true ↔ r.toNat + g.toNat + b.toNat = 0

/-- R52: PixRead of sample p returns the four bytes of pixel memory at 4p to 4p + 3, as R, G, B, A, whatever the free values
are, and the packed bit of that pixel is 1 exactly when the stored R, G and B are 0. The order is R52's, which marks it as
general knowledge (log 22). -/
def Obligations.PixReadReturnsTheStoredBytes : Prop :=
  ∀ (pm : Memory) (p : Nat) (r g b a : Byte),
    memGet pm (4 * p) = some r → memGet pm (4 * p + 1) = some g → memGet pm (4 * p + 2) = some b →
    memGet pm (4 * p + 3) = some a →
    ∀ draw, pixRead pm draw p = ⟨r, g, b, a⟩ ∧
      ∀ w row c k, k < 8 → row * w + 8 * c + k = p →
        ((pack8 pm draw w row c).getLsbD (7 - k) = true ↔ r = 0 ∧ g = 0 ∧ b = 0)

/-- R102: bit 7 − k of the packed byte (r, c) is the ink bit of pixel (r, 8c + k), for every k below 8. -/
def Obligations.PackPutsTheLeftmostPixelHighest : Prop :=
  ∀ (pm : Memory) (draw w r c k : Nat), k < 8 →
    (pack8 pm draw w r c).getLsbD (7 - k) = ink (pixRead pm draw (r * w + 8 * c + k))

/-- R103, R104: the bitmap is row-major with no padding, byte r × WB + c being pack8(r, c), and has exactly WB × H
bytes. -/
def Obligations.EncodeIsRowMajor : Prop :=
  ∀ (pm : Memory) (draw w h : Nat),
    (encodeImage pm draw w h).length = w / 8 * h ∧
    ∀ r c, r < h → c < w / 8 → (encodeImage pm draw w h)[r * (w / 8) + c]? = some (pack8 pm draw w r c)

/-- R107: unpacking the bitmap gives back the ink decision of every pixel. -/
def Obligations.UnpackRecoversInk : Prop :=
  ∀ (pm : Memory) (draw w h r x : Nat), w % 8 = 0 → r < h → x < w →
    unpackBit (encodeImage pm draw w h) w r x = some (ink (pixRead pm draw (r * w + x)))

/-- R75, R120, R121: the ten header bytes and the three trailer bytes. -/
def Obligations.HeaderAndTrailerBytes : Prop :=
  (∀ wb ht : BitVec 16, hdr wb ht = headerBytes wb.toNat ht.toNat) ∧ trl = [0x1B, 0x64, 0x00]

/-- R123, R124, R125: the chunks are n = ceil(L / 128) non-empty pieces of at most 128 bytes that partition BM in order,
chunk k being the bytes from 128 k on. -/
def Obligations.ChunksPartitionTheBitmap : Prop :=
  ∀ bm : List Byte, 1 ≤ bm.length → bm.length ≤ 4294836225 →
    let len := bm.length
    let n := (len + 127) / 128
    chunkCount len = n ∧ 1 ≤ n ∧ n ≤ 33553409 ∧ (List.range n).flatMap (chunk bm len) = bm ∧
    (∀ k, k < n → chunk bm len k = (bm.drop (128 * k)).take (min 128 (len - 128 * k)) ∧
      (chunk bm len k).length = min 128 (len - 128 * k) ∧ 1 ≤ (chunk bm len k).length ∧
      (chunk bm len k).length ≤ 128 ∧ (k + 1 < n → (chunk bm len k).length = 128)) ∧
    128 * (n - 1) + (chunk bm len (n - 1)).length = len

/-- R122, R126: the schedule is the header, the n chunks and the trailer, n + 2 writes, and its concatenation is the
frame of 13 + L bytes. -/
def Obligations.ScheduleSpellsTheFrame : Prop :=
  ∀ (wb ht : BitVec 16) (bm : List Byte), 1 ≤ bm.length →
    (sched wb ht bm bm.length).length = (bm.length + 127) / 128 + 2 ∧
    (sched wb ht bm bm.length)[0]? = some (hdr wb ht) ∧
    (∀ k, k < (bm.length + 127) / 128 → (sched wb ht bm bm.length)[k + 1]? = some (chunk bm bm.length k)) ∧
    (sched wb ht bm bm.length)[(bm.length + 127) / 128 + 1]? = some trl ∧
    (sched wb ht bm bm.length).flatten = hdr wb ht ++ bm ++ trl ∧
    (hdr wb ht ++ bm ++ trl).length = 13 + bm.length

/-- R127: acc(j) is the number of bytes of writes 0 to j of the schedule: 10, then 10 + min(128 j, L), then 13 + L. -/
def Obligations.CumulativeCountsAddTheWrites : Prop :=
  ∀ (wb ht : BitVec 16) (bm : List Byte) (j : Nat), 1 ≤ bm.length → j ≤ (bm.length + 127) / 128 + 1 →
    (((sched wb ht bm bm.length).take (j + 1)).map List.length).sum = acc bm.length j ∧
    acc bm.length 0 = 10 ∧
    (1 ≤ j → j ≤ (bm.length + 127) / 128 → acc bm.length j = 10 + min (128 * j) bm.length) ∧
    acc bm.length ((bm.length + 127) / 128 + 1) = 13 + bm.length

/-- R79: a reader of the byte stream recovers WB, HT and the payload from the header alone. -/
def Obligations.FrameIsReadFromItsHeader : Prop :=
  ∀ (wb ht : BitVec 16) (bm : List Byte), bm.length = wb.toNat * ht.toNat →
    (frame wb ht bm).length = 13 + bm.length ∧ readFrame (frame wb ht bm) = some (wb, ht, bm)

/-! ### Encoding -/

/-- Decode and encode agree: every well-formed operation, with every operand, is what its encoding decodes to. -/
def Obligations.DecodeOfEncodeIsTheInstruction : Prop :=
  ∀ i : Instr, i.wf = true → decode (encode i) = .ok i

/-- The opcode table and R72: every host-bus word whose masked bits match a row decodes to that row's mnemonic, and every
41-bit word matches a row. -/
def Obligations.DecoderFollowsTheOpcodeTable : Prop :=
  (∀ (w : BitVec 41), ∀ row ∈ hbRows, w &&& row.2.2 = row.2.1 → mnemonicOf (decodeHb w) = row.1) ∧
  (∀ w : BitVec 41, ∃ row ∈ hbRows, w &&& row.2.2 = row.2.1)

/-- Whatever the decoder accepts is well-formed, and it rejects no host-bus word and no response (R72, R82). -/
def Obligations.DecodedOperationsAreWellFormed : Prop :=
  (∀ raw i, decode raw = .ok i → i.wf = true) ∧ (∀ w, ∃ i, decode (.hb w) = .ok i) ∧
    (∀ ok, ∃ i, decode (.rsp ok) = .ok i)

/-- Words written out in 95_test_vectors.md, and wire bytes of R75 and R78, decode to their operations. -/
def Obligations.WrittenWordsDecode : Prop :=
  decode (.hb 0x10800000010) = .ok (.wrWidthPx 16) ∧ decode (.hb 0x10C0000012C) = .ok (.wrHeight 300) ∧
  decode (.hb 0x10000000001) = .ok .cmdStart ∧ decode (.hb 0x10000000002) = .ok .cmdClear ∧
  decode (.hb 0x00400000000) = .ok .rdStatus ∧ decode (.hb 0x01800000000) = .ok .rdBytesSent ∧
  decode (.rsp 1) = .ok .rspOk ∧ decode (.rsp 0) = .ok .rspFail ∧ decode (.signal 1) = .ok .reset ∧
  decode (.hdr [0x1B, 0x40]) = .ok .wireEscAt ∧
  decode (.hdr [0x1D, 0x76, 0x30, 0x00, 0x05, 0x00, 0x18, 0x01]) = .ok (.wireGsV0 5 280) ∧
  decode (.pay [0x81, 0x80, 0x00, 0x01]) = .ok (.wireRasterData [0x81, 0x80, 0x00, 0x01]) ∧
  decode (.trl [0x1B, 0x64, 0x00]) = .ok .wireEscD0

/-! ### Steps, reset and the whole machine -/

/-- A step runs the decoded operation: the turn is taken off the agenda, which is the model's schedule (log 1), and nothing
else is done around exec. That bits which are no row of the table (a reset level 0, other wire bytes) are refused by name
is the model's choice of log 15. -/
def Obligations.StepRunsTheDecodedInstruction : Prop :=
  ∀ (s : State) (raw : RawOp) (rest : List Turn), s.agenda = .op raw :: rest →
    (∀ i, decode raw = .ok i → step s = exec i { s with agenda := rest }) ∧
    (∀ why, decode raw = .error why → step s = .refused (.undecodable why))

/-- The words of the opcode table run: after withFetchWord, the next step is exec of the decoded table word, with the
agenda as it was. The placing on the agenda and the reading of the table's widths are the model's own (log 1, log 6). -/
def Obligations.FetchWordRunsNext : Prop :=
  ∀ (s : State) (nbits w : Nat) (i : Instr), decodeTableWord nbits w = some i →
    step (s.withFetchWord nbits w) = exec i s

/-- R230: reset, in every state, sets every register to its reset value and leaves pixel memory, the channel stream and
the progress events as they are. That the model's other records and its agenda stay too is log 12. BM is unspecified and
left open, and so is the model's counter of free values (log 8, log 11). -/
def Obligations.ResetClearsEveryRegister : Prop :=
  decode (.signal 1) = .ok .reset ∧
  ∀ s : State, ∃ t, exec .reset s = .next t ∧
    t = { s with
      seqState := .idle, widthPx := 0, height := 0, geometry := 0, payloadLen := 0, bytesSent := 0, cursor := 0
      chunkIdx := 0, inflight := false, errCode := .none, errStage := .none, bm := t.bm, draws := t.draws } ∧
    statusWord t = 0 ∧ isBusy t = false ∧ jobEnd t = false ∧ portRequest t = none

/-- R42: the values of the state after reset, with the views STATUS and PARAMS, the outputs and the channel port. BM has
no reset value in the rule and none is stated. -/
def Obligations.ResetStateIsTheTable : Prop :=
  State.reset.seqState = .idle ∧ State.reset.widthPx = 0 ∧ State.reset.height = 0 ∧ State.reset.geometry = 0 ∧
  State.reset.payloadLen = 0 ∧ State.reset.bytesSent = 0 ∧ State.reset.cursor = 0 ∧ State.reset.chunkIdx = 0 ∧
  State.reset.inflight = false ∧ State.reset.errCode = .none ∧ State.reset.errStage = .none ∧
  statusWord State.reset = 0 ∧ paramsWord = 0x00030A80 ∧ isBusy State.reset = false ∧ jobEnd State.reset = false ∧
  portRequest State.reset = none

/-- The state after reset is sound. The fields for which R42 gives no value stand at the model's choices (log 8, log 9,
log 11), and its records are empty (log 3). -/
def Obligations.ResetStateIsSound : Prop := Sound State.reset

/-- Every step keeps a state sound: the session table of R37, the length of BM, the canonical form of pixel memory, and
the channel, delivery and progress laws of R147 and R152, whichever agent steps. The delivered and
progress streams are the model's records (log 3); that BM still holds the job's bitmap in DONE, where R38 calls its contents
dead, is the model's choice of log 8. -/
def Obligations.StepKeepsStatesSound : Prop :=
  ∀ s t : State, Sound s → step s = .next t → Sound t

/-- A sound state's step never faults, whichever agent steps and whatever it presents. The two faults are the model's own,
for states that are not sound (log 14). -/
def Obligations.SoundStatesNeverFault : Prop :=
  ∀ s : State, Sound s → NoFault s

/-- R37, R31, R32, R30: in a sound state ERR_CODE is non-zero exactly in FAILED, ERR_STAGE is non-zero exactly when
ERR_CODE is 3, and INFLIGHT is 1 only while busy. -/
def Obligations.ErrorAndInflightFollowState : Prop :=
  ∀ s : State, Sound s →
    (s.errCode ≠ .none ↔ s.seqState = .failed) ∧ (s.errStage ≠ .none ↔ s.errCode = .channelWriteFailed) ∧
    (s.inflight = true → isBusy s = true)

/-- R151: no host access, issue step or pixel write ends a busy job: only a channel response or reset does. -/
def Obligations.BusyJobEndsOnlyByResponseOrReset : Prop :=
  ∀ s t : State, isBusy s = true → step s = .next t → isBusy t = false →
    NextIs s .rspOk ∨ NextIs s .rspFail ∨ NextIs s .reset

/-- R209: only CLEAR, to IDLE, START, to a new job, and reset, to IDLE, take STATE out of FAILED. -/
def Obligations.FailedIsLeftByClearStartOrReset : Prop :=
  ∀ s t : State, s.seqState = .failed → step s = .next t → t.seqState ≠ .failed →
    (NextIs s .cmdClear ∧ t.seqState = .idle) ∨ (NextIs s .cmdStart ∧ t.seqState = .sendHdr) ∨
      (NextIs s .reset ∧ t.seqState = .idle)

/-- R203: FAILED is entered only by a START that fails validation, which clears the session, or by a failed response,
which keeps BYTES_SENT, CURSOR, CHUNK_IDX, GEOMETRY and PAYLOAD_LEN; WIDTH_PX, HEIGHT and BM are kept, and INFLIGHT
is 0. -/
def Obligations.FailedIsEnteredOnlyByFailure : Prop :=
  ∀ s t : State, s.seqState ≠ .failed → step s = .next t → t.seqState = .failed →
    t.inflight = false ∧ t.widthPx = s.widthPx ∧ t.height = s.height ∧ t.bm = s.bm ∧
    ((NextIs s .cmdStart ∧ (t.errCode = .dimensionOverflow ∨ t.errCode = .invalidDimensions) ∧ t.errStage = .none ∧
        NoSession t) ∨
      (NextIs s .rspFail ∧ t.errCode = .channelWriteFailed ∧ t.errStage ≠ .none ∧ t.bytesSent = s.bytesSent ∧
        t.cursor = s.cursor ∧ t.chunkIdx = s.chunkIdx ∧ t.geometry = s.geometry ∧ t.payloadLen = s.payloadLen))

/-- R146: outside the busy states no write is issued, so none follows a failure until a new START. -/
def Obligations.NoWriteOutsideABusyJob : Prop :=
  ∀ s t : State, isBusy s = false → step s = .next t → t.cs = s.cs

/-- R238, R210: in a sound end state the session registers keep their values under every step but START, CLEAR and
reset. -/
def Obligations.EndStateRegistersAreStable : Prop :=
  ∀ s t : State, Sound s → jobEnd s = true → step s = .next t →
    ¬NextIs s .cmdStart → ¬NextIs s .cmdClear → ¬NextIs s .reset → SameSession s t

/-- R205: `job_end` rises only at the step that enters DONE or FAILED, by a response or by a START that fails validation,
and falls only by CLEAR, by a START that passes validation, or by reset. -/
def Obligations.JobEndRisesAndFalls : Prop :=
  ∀ s t : State, step s = .next t →
    (jobEnd s = false → jobEnd t = true →
      (NextIs s .rspOk ∧ t.seqState = .done) ∨ (NextIs s .rspFail ∧ t.seqState = .failed) ∨
        (NextIs s .cmdStart ∧ t.seqState = .failed)) ∧
    (jobEnd s = true → jobEnd t = false →
      (NextIs s .cmdClear ∧ t.seqState = .idle) ∨ (NextIs s .cmdStart ∧ t.seqState = .sendHdr) ∨
        (NextIs s .reset ∧ t.seqState = .idle))

/-- R27, R203: in a sound state BYTES_SENT is the number of bytes of the job's confirmed writes: the delivered stream ends
with the first writes of the schedule, and their lengths add up to it. The delivered stream is the model's record (log 3);
that BM still holds the job's bitmap in DONE, where R38 calls its contents dead, is the model's choice of log 8. -/
def Obligations.BytesSentIsTheSumOfDeliveredWrites : Prop :=
  ∀ s : State, Sound s → ∃ before k,
    s.delivered = before ++ (jobRequests s).take k ∧
    (((jobRequests s).take k).map (fun req => req.data.length)).sum = s.bytesSent.toNat

/-- R122: in a sound state a job that reached DONE has delivered exactly its frame, header, bitmap and trailer, as its
last n + 2 writes. The delivered stream is the model's record (log 3); that BM still holds the job's bitmap in DONE, where
R38 calls its contents dead, is the model's choice of log 8. -/
def Obligations.DoneJobDeliveredItsFrame : Prop :=
  ∀ s : State, Sound s → s.seqState = .done → ∃ before reqs,
    s.delivered = before ++ reqs ∧ reqs.length = (s.payloadLen.toNat + 127) / 128 + 2 ∧
    (reqs.map (·.data)).flatten = frame (geomWb s) (geomHt s) s.bm ∧
    (frame (geomWb s) (geomHt s) s.bm).length = 13 + (geomWb s).toNat * (geomHt s).toNat

/-- R39, R52: pixel memory changes only by a host write of it. -/
def Obligations.OnlyTheHostWritesPixelMemory : Prop :=
  ∀ s t : State, step s = .next t → ¬NextIsPixelWrite s → t.pm = s.pm

/-- R52, R53: a host write of sample p stores R, G, B, A at byte addresses 4p to 4p + 3, leaves every other byte of pixel
memory and every register, stream and record as they are, and can change no byte of BM but byte p / 8.
PixRead then returns that sample at p, whatever the free values are, and what it returned before at every other index. That the host writes whole samples is log 20, the byte of BM that a write in a job opens is log 10, and the
R, G, B, A order is marked by R52 as general knowledge (log 22). -/
def Obligations.PixelWriteStoresOneSample : Prop :=
  ∀ (s : State) (p : BitVec 35) (x : Sample) (rest : List Turn), s.agenda = .pixel p x :: rest →
    ∃ t, step s = .next t ∧
      t = { s with agenda := rest, pm := t.pm, bm := t.bm, draws := t.draws } ∧
      (∀ a, memGet t.pm a =
        if a = 4 * p.toNat then some x.r else if a = 4 * p.toNat + 1 then some x.g
        else if a = 4 * p.toNat + 2 then some x.b else if a = 4 * p.toNat + 3 then some x.a else memGet s.pm a) ∧
      (∀ draw, pixRead t.pm draw p.toNat = x ∧
        ∀ q, q ≠ p.toNat → pixRead t.pm draw q = pixRead s.pm draw q) ∧
      t.bm.length = s.bm.length ∧ (∀ j, j ≠ p.toNat / 8 → t.bm[j]? = s.bm[j]?)

/-- R53, R235: the snapshot holds: outside a job, for a sample outside the image, for a sample the write does not change,
and for a payload byte already issued, a host write of pixel memory leaves BM as it is. Outside a job R38 calls BM dead, and
that it is kept there is the model's choice of log 8; which bytes other writes open is log 10. -/
def Obligations.SnapshotSurvivesHarmlessPixelWrites : Prop :=
  ∀ (s t : State) (p : BitVec 35) (x : Sample) (rest : List Turn),
    Sound s → s.agenda = .pixel p x :: rest → step s = .next t →
    (isBusy s = false ∨ 8 * (geomWb s).toNat * (geomHt s).toNat ≤ p.toNat ∨
      (memGet s.pm (4 * p.toNat) = some x.r ∧ memGet s.pm (4 * p.toNat + 1) = some x.g ∧
        memGet s.pm (4 * p.toNat + 2) = some x.b ∧ memGet s.pm (4 * p.toNat + 3) = some x.a) ∨
      p.toNat / 8 < s.cursor.toNat ∨
      (s.seqState = .sendChunk ∧ s.inflight = true ∧ p.toNat / 8 < s.cursor.toNat + chunkBytes s)) →
    t.bm = s.bm

/-- R208: events of one cycle: reset alone where it is asserted, else the response and then the command. The turn that
groups them is the model's (log 16). -/
def Obligations.CycleEventsAreOrdered : Prop :=
  ∀ (s : State) (ok : BitVec 1) (w : BitVec 41) (rest : List Turn),
    (∀ rsp host, s.agenda = .together true rsp host :: rest →
      step s = .next { s with agenda := .op (.signal 1) :: rest }) ∧
    (s.agenda = .together false (some ok) (some w) :: rest →
      step s = .next { s with agenda := .op (.rsp ok) :: .op (.hb w) :: rest })

/-- R147, R152: from a sound state at the start of a job, with every write issued and then confirmed, the job reaches
DONE; the channel stream has grown by exactly the schedule, BYTES_SENT is 13 + L, and the progress events are acc(0) to
acc(n + 1). The order of the steps stands in the agenda, the model's schedule (log 1). -/
def Obligations.ConfirmedJobRunsItsSchedule : Prop :=
  ∀ (s : State) (rest : List Turn), Sound s → s.seqState = .sendHdr → s.inflight = false →
    s.agenda = (List.replicate (chunkCount s.payloadLen.toNat + 2) [Turn.block, Turn.op (.rsp 1)]).flatten ++ rest →
    ∃ t, Host.Core.run Sys2Proof.core (2 * (chunkCount s.payloadLen.toNat + 2)) s = .next t ∧
      t.seqState = .done ∧ t.agenda = rest ∧ t.bytesSent.toNat = 13 + s.payloadLen.toNat ∧
      t.cs = s.cs ++ (sched (geomWb s) (geomHt s) s.bm s.payloadLen.toNat).map requestOf ∧
      t.progress = s.progress ++
        (List.range (chunkCount s.payloadLen.toNat + 2)).map (fun j => BitVec.ofNat 32 (acc s.payloadLen.toNat j))
end

