-- ==== Sys2Proof/Laws/State.lean ====
section
/-! SUPPORT. One lemma for each field of State under each named update, so that no proof unfolds an update. -/

namespace Sys2Proof.Machine

/-! ### clearSession -/

@[simp] theorem clearSession_seqState (s : State) : (clearSession s).seqState = s.seqState := rfl
@[simp] theorem clearSession_widthPx (s : State) : (clearSession s).widthPx = s.widthPx := rfl
@[simp] theorem clearSession_height (s : State) : (clearSession s).height = s.height := rfl
@[simp] theorem clearSession_geometry (s : State) : (clearSession s).geometry = 0 := rfl
@[simp] theorem clearSession_payloadLen (s : State) : (clearSession s).payloadLen = 0 := rfl
@[simp] theorem clearSession_bytesSent (s : State) : (clearSession s).bytesSent = 0 := rfl
@[simp] theorem clearSession_cursor (s : State) : (clearSession s).cursor = 0 := rfl
@[simp] theorem clearSession_chunkIdx (s : State) : (clearSession s).chunkIdx = 0 := rfl
@[simp] theorem clearSession_inflight (s : State) : (clearSession s).inflight = false := rfl
@[simp] theorem clearSession_errCode (s : State) : (clearSession s).errCode = .none := rfl
@[simp] theorem clearSession_errStage (s : State) : (clearSession s).errStage = .none := rfl
@[simp] theorem clearSession_bm (s : State) : (clearSession s).bm = s.bm := rfl
@[simp] theorem clearSession_pm (s : State) : (clearSession s).pm = s.pm := rfl
@[simp] theorem clearSession_cs (s : State) : (clearSession s).cs = s.cs := rfl
@[simp] theorem clearSession_delivered (s : State) : (clearSession s).delivered = s.delivered := rfl
@[simp] theorem clearSession_progress (s : State) : (clearSession s).progress = s.progress := rfl
@[simp] theorem clearSession_reads (s : State) : (clearSession s).reads = s.reads := rfl
@[simp] theorem clearSession_agenda (s : State) : (clearSession s).agenda = s.agenda := rfl
@[simp] theorem clearSession_draws (s : State) : (clearSession s).draws = s.draws := rfl

/-! ### fail -/

@[simp] theorem fail_seqState (code : ErrCode) (stage : Stage) (s : State) : (fail code stage s).seqState = .failed := rfl
@[simp] theorem fail_widthPx (code : ErrCode) (stage : Stage) (s : State) : (fail code stage s).widthPx = s.widthPx := rfl
@[simp] theorem fail_height (code : ErrCode) (stage : Stage) (s : State) : (fail code stage s).height = s.height := rfl
@[simp] theorem fail_geometry (code : ErrCode) (stage : Stage) (s : State) : (fail code stage s).geometry = s.geometry := rfl
@[simp] theorem fail_payloadLen (code : ErrCode) (stage : Stage) (s : State) : (fail code stage s).payloadLen = s.payloadLen := rfl
@[simp] theorem fail_bytesSent (code : ErrCode) (stage : Stage) (s : State) : (fail code stage s).bytesSent = s.bytesSent := rfl
@[simp] theorem fail_cursor (code : ErrCode) (stage : Stage) (s : State) : (fail code stage s).cursor = s.cursor := rfl
@[simp] theorem fail_chunkIdx (code : ErrCode) (stage : Stage) (s : State) : (fail code stage s).chunkIdx = s.chunkIdx := rfl
@[simp] theorem fail_inflight (code : ErrCode) (stage : Stage) (s : State) : (fail code stage s).inflight = false := rfl
@[simp] theorem fail_errCode (code : ErrCode) (stage : Stage) (s : State) : (fail code stage s).errCode = code := rfl
@[simp] theorem fail_errStage (code : ErrCode) (stage : Stage) (s : State) : (fail code stage s).errStage = stage := rfl
@[simp] theorem fail_bm (code : ErrCode) (stage : Stage) (s : State) : (fail code stage s).bm = s.bm := rfl
@[simp] theorem fail_pm (code : ErrCode) (stage : Stage) (s : State) : (fail code stage s).pm = s.pm := rfl
@[simp] theorem fail_cs (code : ErrCode) (stage : Stage) (s : State) : (fail code stage s).cs = s.cs := rfl
@[simp] theorem fail_delivered (code : ErrCode) (stage : Stage) (s : State) : (fail code stage s).delivered = s.delivered := rfl
@[simp] theorem fail_progress (code : ErrCode) (stage : Stage) (s : State) : (fail code stage s).progress = s.progress := rfl
@[simp] theorem fail_reads (code : ErrCode) (stage : Stage) (s : State) : (fail code stage s).reads = s.reads := rfl
@[simp] theorem fail_agenda (code : ErrCode) (stage : Stage) (s : State) : (fail code stage s).agenda = s.agenda := rfl
@[simp] theorem fail_draws (code : ErrCode) (stage : Stage) (s : State) : (fail code stage s).draws = s.draws := rfl

/-! ### leaveEndState -/

@[simp] theorem leaveEndState_seqState (s : State) : (leaveEndState s).seqState = .idle := rfl
@[simp] theorem leaveEndState_widthPx (s : State) : (leaveEndState s).widthPx = s.widthPx := rfl
@[simp] theorem leaveEndState_height (s : State) : (leaveEndState s).height = s.height := rfl
@[simp] theorem leaveEndState_geometry (s : State) : (leaveEndState s).geometry = 0 := rfl
@[simp] theorem leaveEndState_payloadLen (s : State) : (leaveEndState s).payloadLen = 0 := rfl
@[simp] theorem leaveEndState_bytesSent (s : State) : (leaveEndState s).bytesSent = 0 := rfl
@[simp] theorem leaveEndState_cursor (s : State) : (leaveEndState s).cursor = 0 := rfl
@[simp] theorem leaveEndState_chunkIdx (s : State) : (leaveEndState s).chunkIdx = 0 := rfl
@[simp] theorem leaveEndState_inflight (s : State) : (leaveEndState s).inflight = false := rfl
@[simp] theorem leaveEndState_errCode (s : State) : (leaveEndState s).errCode = .none := rfl
@[simp] theorem leaveEndState_errStage (s : State) : (leaveEndState s).errStage = .none := rfl
@[simp] theorem leaveEndState_bm (s : State) : (leaveEndState s).bm = s.bm := rfl
@[simp] theorem leaveEndState_pm (s : State) : (leaveEndState s).pm = s.pm := rfl
@[simp] theorem leaveEndState_cs (s : State) : (leaveEndState s).cs = s.cs := rfl
@[simp] theorem leaveEndState_delivered (s : State) : (leaveEndState s).delivered = s.delivered := rfl
@[simp] theorem leaveEndState_progress (s : State) : (leaveEndState s).progress = s.progress := rfl
@[simp] theorem leaveEndState_reads (s : State) : (leaveEndState s).reads = s.reads := rfl
@[simp] theorem leaveEndState_agenda (s : State) : (leaveEndState s).agenda = s.agenda := rfl
@[simp] theorem leaveEndState_draws (s : State) : (leaveEndState s).draws = s.draws := rfl

/-! ### chanIssue -/

@[simp] theorem chanIssue_seqState (req : WriteReq) (s : State) : (chanIssue req s).seqState = s.seqState := rfl
@[simp] theorem chanIssue_widthPx (req : WriteReq) (s : State) : (chanIssue req s).widthPx = s.widthPx := rfl
@[simp] theorem chanIssue_height (req : WriteReq) (s : State) : (chanIssue req s).height = s.height := rfl
@[simp] theorem chanIssue_geometry (req : WriteReq) (s : State) : (chanIssue req s).geometry = s.geometry := rfl
@[simp] theorem chanIssue_payloadLen (req : WriteReq) (s : State) : (chanIssue req s).payloadLen = s.payloadLen := rfl
@[simp] theorem chanIssue_bytesSent (req : WriteReq) (s : State) : (chanIssue req s).bytesSent = s.bytesSent := rfl
@[simp] theorem chanIssue_cursor (req : WriteReq) (s : State) : (chanIssue req s).cursor = s.cursor := rfl
@[simp] theorem chanIssue_chunkIdx (req : WriteReq) (s : State) : (chanIssue req s).chunkIdx = s.chunkIdx := rfl
@[simp] theorem chanIssue_inflight (req : WriteReq) (s : State) : (chanIssue req s).inflight = s.inflight := rfl
@[simp] theorem chanIssue_errCode (req : WriteReq) (s : State) : (chanIssue req s).errCode = s.errCode := rfl
@[simp] theorem chanIssue_errStage (req : WriteReq) (s : State) : (chanIssue req s).errStage = s.errStage := rfl
@[simp] theorem chanIssue_bm (req : WriteReq) (s : State) : (chanIssue req s).bm = s.bm := rfl
@[simp] theorem chanIssue_pm (req : WriteReq) (s : State) : (chanIssue req s).pm = s.pm := rfl
@[simp] theorem chanIssue_cs (req : WriteReq) (s : State) : (chanIssue req s).cs = s.cs ++ [req] := rfl
@[simp] theorem chanIssue_delivered (req : WriteReq) (s : State) : (chanIssue req s).delivered = s.delivered := rfl
@[simp] theorem chanIssue_progress (req : WriteReq) (s : State) : (chanIssue req s).progress = s.progress := rfl
@[simp] theorem chanIssue_reads (req : WriteReq) (s : State) : (chanIssue req s).reads = s.reads := rfl
@[simp] theorem chanIssue_agenda (req : WriteReq) (s : State) : (chanIssue req s).agenda = s.agenda := rfl
@[simp] theorem chanIssue_draws (req : WriteReq) (s : State) : (chanIssue req s).draws = s.draws := rfl

/-! ### emitProgress -/

@[simp] theorem emitProgress_seqState (s : State) : (emitProgress s).seqState = s.seqState := rfl
@[simp] theorem emitProgress_widthPx (s : State) : (emitProgress s).widthPx = s.widthPx := rfl
@[simp] theorem emitProgress_height (s : State) : (emitProgress s).height = s.height := rfl
@[simp] theorem emitProgress_geometry (s : State) : (emitProgress s).geometry = s.geometry := rfl
@[simp] theorem emitProgress_payloadLen (s : State) : (emitProgress s).payloadLen = s.payloadLen := rfl
@[simp] theorem emitProgress_bytesSent (s : State) : (emitProgress s).bytesSent = s.bytesSent := rfl
@[simp] theorem emitProgress_cursor (s : State) : (emitProgress s).cursor = s.cursor := rfl
@[simp] theorem emitProgress_chunkIdx (s : State) : (emitProgress s).chunkIdx = s.chunkIdx := rfl
@[simp] theorem emitProgress_inflight (s : State) : (emitProgress s).inflight = s.inflight := rfl
@[simp] theorem emitProgress_errCode (s : State) : (emitProgress s).errCode = s.errCode := rfl
@[simp] theorem emitProgress_errStage (s : State) : (emitProgress s).errStage = s.errStage := rfl
@[simp] theorem emitProgress_bm (s : State) : (emitProgress s).bm = s.bm := rfl
@[simp] theorem emitProgress_pm (s : State) : (emitProgress s).pm = s.pm := rfl
@[simp] theorem emitProgress_cs (s : State) : (emitProgress s).cs = s.cs := rfl
@[simp] theorem emitProgress_delivered (s : State) : (emitProgress s).delivered = s.delivered := rfl
@[simp] theorem emitProgress_progress (s : State) : (emitProgress s).progress = s.progress ++ [s.bytesSent] := rfl
@[simp] theorem emitProgress_reads (s : State) : (emitProgress s).reads = s.reads := rfl
@[simp] theorem emitProgress_agenda (s : State) : (emitProgress s).agenda = s.agenda := rfl
@[simp] theorem emitProgress_draws (s : State) : (emitProgress s).draws = s.draws := rfl

/-! ### takeConfirmation -/

@[simp] theorem takeConfirmation_seqState (m : BitVec 8) (s : State) : (takeConfirmation m s).seqState = s.seqState := rfl
@[simp] theorem takeConfirmation_widthPx (m : BitVec 8) (s : State) : (takeConfirmation m s).widthPx = s.widthPx := rfl
@[simp] theorem takeConfirmation_height (m : BitVec 8) (s : State) : (takeConfirmation m s).height = s.height := rfl
@[simp] theorem takeConfirmation_geometry (m : BitVec 8) (s : State) : (takeConfirmation m s).geometry = s.geometry := rfl
@[simp] theorem takeConfirmation_payloadLen (m : BitVec 8) (s : State) : (takeConfirmation m s).payloadLen = s.payloadLen := rfl
@[simp] theorem takeConfirmation_bytesSent (m : BitVec 8) (s : State) : (takeConfirmation m s).bytesSent = s.bytesSent + m.setWidth 32 := rfl
@[simp] theorem takeConfirmation_cursor (m : BitVec 8) (s : State) : (takeConfirmation m s).cursor = s.cursor := rfl
@[simp] theorem takeConfirmation_chunkIdx (m : BitVec 8) (s : State) : (takeConfirmation m s).chunkIdx = s.chunkIdx := rfl
@[simp] theorem takeConfirmation_inflight (m : BitVec 8) (s : State) : (takeConfirmation m s).inflight = false := rfl
@[simp] theorem takeConfirmation_errCode (m : BitVec 8) (s : State) : (takeConfirmation m s).errCode = s.errCode := rfl
@[simp] theorem takeConfirmation_errStage (m : BitVec 8) (s : State) : (takeConfirmation m s).errStage = s.errStage := rfl
@[simp] theorem takeConfirmation_bm (m : BitVec 8) (s : State) : (takeConfirmation m s).bm = s.bm := rfl
@[simp] theorem takeConfirmation_pm (m : BitVec 8) (s : State) : (takeConfirmation m s).pm = s.pm := rfl
@[simp] theorem takeConfirmation_cs (m : BitVec 8) (s : State) : (takeConfirmation m s).cs = s.cs := rfl
@[simp] theorem takeConfirmation_delivered (m : BitVec 8) (s : State) : (takeConfirmation m s).delivered = s.delivered ++ (portRequest s).toList := rfl
@[simp] theorem takeConfirmation_progress (m : BitVec 8) (s : State) : (takeConfirmation m s).progress = s.progress := rfl
@[simp] theorem takeConfirmation_reads (m : BitVec 8) (s : State) : (takeConfirmation m s).reads = s.reads := rfl
@[simp] theorem takeConfirmation_agenda (m : BitVec 8) (s : State) : (takeConfirmation m s).agenda = s.agenda := rfl
@[simp] theorem takeConfirmation_draws (m : BitVec 8) (s : State) : (takeConfirmation m s).draws = s.draws := rfl

/-! ### hostRead -/

@[simp] theorem hostRead_seqState (v : BitVec 32) (s : State) : (hostRead v s).seqState = s.seqState := rfl
@[simp] theorem hostRead_widthPx (v : BitVec 32) (s : State) : (hostRead v s).widthPx = s.widthPx := rfl
@[simp] theorem hostRead_height (v : BitVec 32) (s : State) : (hostRead v s).height = s.height := rfl
@[simp] theorem hostRead_geometry (v : BitVec 32) (s : State) : (hostRead v s).geometry = s.geometry := rfl
@[simp] theorem hostRead_payloadLen (v : BitVec 32) (s : State) : (hostRead v s).payloadLen = s.payloadLen := rfl
@[simp] theorem hostRead_bytesSent (v : BitVec 32) (s : State) : (hostRead v s).bytesSent = s.bytesSent := rfl
@[simp] theorem hostRead_cursor (v : BitVec 32) (s : State) : (hostRead v s).cursor = s.cursor := rfl
@[simp] theorem hostRead_chunkIdx (v : BitVec 32) (s : State) : (hostRead v s).chunkIdx = s.chunkIdx := rfl
@[simp] theorem hostRead_inflight (v : BitVec 32) (s : State) : (hostRead v s).inflight = s.inflight := rfl
@[simp] theorem hostRead_errCode (v : BitVec 32) (s : State) : (hostRead v s).errCode = s.errCode := rfl
@[simp] theorem hostRead_errStage (v : BitVec 32) (s : State) : (hostRead v s).errStage = s.errStage := rfl
@[simp] theorem hostRead_bm (v : BitVec 32) (s : State) : (hostRead v s).bm = s.bm := rfl
@[simp] theorem hostRead_pm (v : BitVec 32) (s : State) : (hostRead v s).pm = s.pm := rfl
@[simp] theorem hostRead_cs (v : BitVec 32) (s : State) : (hostRead v s).cs = s.cs := rfl
@[simp] theorem hostRead_delivered (v : BitVec 32) (s : State) : (hostRead v s).delivered = s.delivered := rfl
@[simp] theorem hostRead_progress (v : BitVec 32) (s : State) : (hostRead v s).progress = s.progress := rfl
@[simp] theorem hostRead_reads (v : BitVec 32) (s : State) : (hostRead v s).reads = s.reads ++ [v] := rfl
@[simp] theorem hostRead_agenda (v : BitVec 32) (s : State) : (hostRead v s).agenda = s.agenda := rfl
@[simp] theorem hostRead_draws (v : BitVec 32) (s : State) : (hostRead v s).draws = s.draws := rfl

/-! ### beginJob -/

@[simp] theorem beginJob_seqState (w h : BitVec 32) (s : State) : (beginJob w h s).seqState = .sendHdr := rfl
@[simp] theorem beginJob_widthPx (w h : BitVec 32) (s : State) : (beginJob w h s).widthPx = s.widthPx := rfl
@[simp] theorem beginJob_height (w h : BitVec 32) (s : State) : (beginJob w h s).height = s.height := rfl
@[simp] theorem beginJob_geometry (w h : BitVec 32) (s : State) : (beginJob w h s).geometry = geometryOf (widthBytes w) h := rfl
@[simp] theorem beginJob_payloadLen (w h : BitVec 32) (s : State) : (beginJob w h s).payloadLen = BitVec.ofNat 32 ((widthBytes w).toNat * h.toNat) := rfl
@[simp] theorem beginJob_bytesSent (w h : BitVec 32) (s : State) : (beginJob w h s).bytesSent = s.bytesSent := rfl
@[simp] theorem beginJob_cursor (w h : BitVec 32) (s : State) : (beginJob w h s).cursor = s.cursor := rfl
@[simp] theorem beginJob_chunkIdx (w h : BitVec 32) (s : State) : (beginJob w h s).chunkIdx = s.chunkIdx := rfl
@[simp] theorem beginJob_inflight (w h : BitVec 32) (s : State) : (beginJob w h s).inflight = s.inflight := rfl
@[simp] theorem beginJob_errCode (w h : BitVec 32) (s : State) : (beginJob w h s).errCode = s.errCode := rfl
@[simp] theorem beginJob_errStage (w h : BitVec 32) (s : State) : (beginJob w h s).errStage = s.errStage := rfl
@[simp] theorem beginJob_bm (w h : BitVec 32) (s : State) : (beginJob w h s).bm = encodeImage s.pm s.draws w.toNat h.toNat := rfl
@[simp] theorem beginJob_pm (w h : BitVec 32) (s : State) : (beginJob w h s).pm = s.pm := rfl
@[simp] theorem beginJob_cs (w h : BitVec 32) (s : State) : (beginJob w h s).cs = s.cs := rfl
@[simp] theorem beginJob_delivered (w h : BitVec 32) (s : State) : (beginJob w h s).delivered = s.delivered := rfl
@[simp] theorem beginJob_progress (w h : BitVec 32) (s : State) : (beginJob w h s).progress = s.progress := rfl
@[simp] theorem beginJob_reads (w h : BitVec 32) (s : State) : (beginJob w h s).reads = s.reads := rfl
@[simp] theorem beginJob_agenda (w h : BitVec 32) (s : State) : (beginJob w h s).agenda = s.agenda := rfl
@[simp] theorem beginJob_draws (w h : BitVec 32) (s : State) : (beginJob w h s).draws = s.draws + 1 := rfl

/-! ### resetBlock -/

@[simp] theorem resetBlock_seqState (s : State) : (resetBlock s).seqState = .idle := rfl
@[simp] theorem resetBlock_widthPx (s : State) : (resetBlock s).widthPx = 0 := rfl
@[simp] theorem resetBlock_height (s : State) : (resetBlock s).height = 0 := rfl
@[simp] theorem resetBlock_geometry (s : State) : (resetBlock s).geometry = 0 := rfl
@[simp] theorem resetBlock_payloadLen (s : State) : (resetBlock s).payloadLen = 0 := rfl
@[simp] theorem resetBlock_bytesSent (s : State) : (resetBlock s).bytesSent = 0 := rfl
@[simp] theorem resetBlock_cursor (s : State) : (resetBlock s).cursor = 0 := rfl
@[simp] theorem resetBlock_chunkIdx (s : State) : (resetBlock s).chunkIdx = 0 := rfl
@[simp] theorem resetBlock_inflight (s : State) : (resetBlock s).inflight = false := rfl
@[simp] theorem resetBlock_errCode (s : State) : (resetBlock s).errCode = .none := rfl
@[simp] theorem resetBlock_errStage (s : State) : (resetBlock s).errStage = .none := rfl
@[simp] theorem resetBlock_bm (s : State) : (resetBlock s).bm = Config.freeBitmap s.draws := rfl
@[simp] theorem resetBlock_pm (s : State) : (resetBlock s).pm = s.pm := rfl
@[simp] theorem resetBlock_cs (s : State) : (resetBlock s).cs = s.cs := rfl
@[simp] theorem resetBlock_delivered (s : State) : (resetBlock s).delivered = s.delivered := rfl
@[simp] theorem resetBlock_progress (s : State) : (resetBlock s).progress = s.progress := rfl
@[simp] theorem resetBlock_reads (s : State) : (resetBlock s).reads = s.reads := rfl
@[simp] theorem resetBlock_agenda (s : State) : (resetBlock s).agenda = s.agenda := rfl
@[simp] theorem resetBlock_draws (s : State) : (resetBlock s).draws = s.draws + 1 := rfl

/-! ### hostPixelWrite -/

@[simp] theorem hostPixelWrite_seqState (p : BitVec 35) (x : Sample) (s : State) : (hostPixelWrite p x s).seqState = s.seqState := rfl
@[simp] theorem hostPixelWrite_widthPx (p : BitVec 35) (x : Sample) (s : State) : (hostPixelWrite p x s).widthPx = s.widthPx := rfl
@[simp] theorem hostPixelWrite_height (p : BitVec 35) (x : Sample) (s : State) : (hostPixelWrite p x s).height = s.height := rfl
@[simp] theorem hostPixelWrite_geometry (p : BitVec 35) (x : Sample) (s : State) : (hostPixelWrite p x s).geometry = s.geometry := rfl
@[simp] theorem hostPixelWrite_payloadLen (p : BitVec 35) (x : Sample) (s : State) : (hostPixelWrite p x s).payloadLen = s.payloadLen := rfl
@[simp] theorem hostPixelWrite_bytesSent (p : BitVec 35) (x : Sample) (s : State) : (hostPixelWrite p x s).bytesSent = s.bytesSent := rfl
@[simp] theorem hostPixelWrite_cursor (p : BitVec 35) (x : Sample) (s : State) : (hostPixelWrite p x s).cursor = s.cursor := rfl
@[simp] theorem hostPixelWrite_chunkIdx (p : BitVec 35) (x : Sample) (s : State) : (hostPixelWrite p x s).chunkIdx = s.chunkIdx := rfl
@[simp] theorem hostPixelWrite_inflight (p : BitVec 35) (x : Sample) (s : State) : (hostPixelWrite p x s).inflight = s.inflight := rfl
@[simp] theorem hostPixelWrite_errCode (p : BitVec 35) (x : Sample) (s : State) : (hostPixelWrite p x s).errCode = s.errCode := rfl
@[simp] theorem hostPixelWrite_errStage (p : BitVec 35) (x : Sample) (s : State) : (hostPixelWrite p x s).errStage = s.errStage := rfl
@[simp] theorem hostPixelWrite_bm (p : BitVec 35) (x : Sample) (s : State) : (hostPixelWrite p x s).bm = 
    if opensBitmapByte p.toNat x s then s.bm.set (sampleByte p.toNat) (Config.freeBitmapByte s.draws) else s.bm := rfl
@[simp] theorem hostPixelWrite_pm (p : BitVec 35) (x : Sample) (s : State) : (hostPixelWrite p x s).pm = writeSample s.pm p.toNat x := rfl
@[simp] theorem hostPixelWrite_cs (p : BitVec 35) (x : Sample) (s : State) : (hostPixelWrite p x s).cs = s.cs := rfl
@[simp] theorem hostPixelWrite_delivered (p : BitVec 35) (x : Sample) (s : State) : (hostPixelWrite p x s).delivered = s.delivered := rfl
@[simp] theorem hostPixelWrite_progress (p : BitVec 35) (x : Sample) (s : State) : (hostPixelWrite p x s).progress = s.progress := rfl
@[simp] theorem hostPixelWrite_reads (p : BitVec 35) (x : Sample) (s : State) : (hostPixelWrite p x s).reads = s.reads := rfl
@[simp] theorem hostPixelWrite_agenda (p : BitVec 35) (x : Sample) (s : State) : (hostPixelWrite p x s).agenda = s.agenda := rfl
@[simp] theorem hostPixelWrite_draws (p : BitVec 35) (x : Sample) (s : State) : (hostPixelWrite p x s).draws = s.draws + 1 := rfl

end Sys2Proof.Machine
end

