-- ==== Sys2Proof/Laws/Effects.lean ====
section
/-! SUPPORT. What a step can do, said once: one inversion lemma for each shared operation, and one for exec and step. -/

namespace Sys2Proof.Machine

/-! ### Shared operations -/

/-- The state after the issue step presented `bytes` with LEN `m`. -/
def issueResult (m : BitVec 8) (bytes : List Byte) (s : State) : State :=
  { chanIssue ⟨m, bytes⟩ s with inflight := true }

theorem issueStep_of_enabled {s : State} {m bytes} (he : issueEnabled s = true) (hm : curLen s = some m)
    (hb : curBytes s = some bytes) : issueStep s = .next (issueResult m bytes s) := by
  simp [issueStep, he, hm, hb, issueResult]

theorem issueStep_of_disabled {s : State} (he : issueEnabled s = false) : issueStep s = .next s := by
  simp [issueStep, he]

/-- The issue step, if it answers a next state, was not enabled, or presented the current write. -/
theorem issueStep_next {s t : State} (h : issueStep s = .next t) :
    (issueEnabled s = false ∧ t = s) ∨
    (issueEnabled s = true ∧ ∃ m bytes, curLen s = some m ∧ curBytes s = some bytes ∧ t = issueResult m bytes s) := by
  unfold issueStep at h
  split at h
  · rename_i he
    split at h
    · rename_i m bytes hm hb
      exact .inr ⟨he, m, bytes, hm, hb, by simpa [issueResult] using h.symm⟩
    · cases h
  · rename_i he
    exact .inl ⟨by simpa using he, by simpa using h.symm⟩

theorem execRspOk_next {s t : State} (h : execRspOk s = .next t) :
    (s.inflight = false ∧ t = s) ∨
    (s.inflight = true ∧ ∃ m, curLen s = some m ∧ t = advance m (emitProgress (takeConfirmation m s))) := by
  unfold execRspOk at h
  split at h
  · rename_i hi
    split at h
    · rename_i m hm
      exact .inr ⟨hi, m, hm, by simpa using h.symm⟩
    · cases h
  · rename_i hi
    exact .inl ⟨by simpa using hi, by simpa using h.symm⟩

theorem execRspFail_next {s t : State} (h : execRspFail s = .next t) :
    (s.inflight = false ∧ t = s) ∨
    (s.inflight = true ∧ ∃ g, stageOf s = some g ∧ t = fail .channelWriteFailed g { s with inflight := false }) := by
  unfold execRspFail at h
  split at h
  · rename_i hi
    split at h
    · rename_i g hg
      exact .inr ⟨hi, g, hg, by simpa using h.symm⟩
    · cases h
  · rename_i hi
    exact .inl ⟨by simpa using hi, by simpa using h.symm⟩

theorem execCmdStart_next {s t : State} (h : execCmdStart s = .next t) :
    (isBusy s = true ∧ t = s) ∨ (isBusy s = false ∧ t = startJob s) := by
  unfold execCmdStart at h
  split at h
  · rename_i hb
    exact .inl ⟨hb, by simpa using h.symm⟩
  · rename_i hb
    exact .inr ⟨by simpa using hb, by simpa using h.symm⟩

theorem execCmdClear_next {s t : State} (h : execCmdClear s = .next t) :
    (jobEnd s = false ∧ t = s) ∨ (jobEnd s = true ∧ t = leaveEndState s) := by
  unfold execCmdClear at h
  split at h
  · rename_i hb
    exact .inr ⟨hb, by simpa using h.symm⟩
  · rename_i hb
    exact .inl ⟨by simpa using hb, by simpa using h.symm⟩

/-- START outside a job: an overflow, an invalid dimension, or a new job. -/
theorem startJob_cases (s : State) :
    (dimensionsOverflow s.widthPx s.height = true ∧ startJob s = fail .dimensionOverflow .none (clearSession s)) ∨
    (dimensionsOverflow s.widthPx s.height = false ∧ dimensionsInvalid s.widthPx s.height = true ∧
      startJob s = fail .invalidDimensions .none (clearSession s)) ∨
    (dimensionsOverflow s.widthPx s.height = false ∧ dimensionsInvalid s.widthPx s.height = false ∧
      startJob s = beginJob s.widthPx s.height (clearSession s)) := by
  unfold startJob
  cases dimensionsOverflow s.widthPx s.height <;> cases dimensionsInvalid s.widthPx s.height <;> simp

/-! ### exec and step -/

/-- What a step was caused by. -/
inductive Cause where
  | op (i : Instr)
  | block
  | pixel (p : BitVec 35) (x : Sample)
  | cycle

/-- What a step with this cause can have done to a state whose turn is already taken off the agenda. -/
inductive Effect (s : State) : Cause → State → Prop
  | same (c : Cause) : Effect s c s
  | read (i : Instr) (v : BitVec 32) : Effect s (.op i) (hostRead v s)
  | width (v : BitVec 32) : Effect s (.op (.wrWidthPx v)) { s with widthPx := v }
  | height (v : BitVec 32) : Effect s (.op (.wrHeight v)) { s with height := v }
  | start (hb : isBusy s = false) : Effect s (.op .cmdStart) (startJob s)
  | clear (he : jobEnd s = true) : Effect s (.op .cmdClear) (leaveEndState s)
  | confirm (m : BitVec 8) (hi : s.inflight = true) (hm : curLen s = some m) :
      Effect s (.op .rspOk) (advance m (emitProgress (takeConfirmation m s)))
  | failure (g : Stage) (hi : s.inflight = true) (hg : stageOf s = some g) :
      Effect s (.op .rspFail) (fail .channelWriteFailed g { s with inflight := false })
  | reset : Effect s (.op .reset) (resetBlock s)
  | issue (c : Cause) (m : BitVec 8) (bytes : List Byte) (he : issueEnabled s = true) (hm : curLen s = some m)
      (hb : curBytes s = some bytes) : Effect s c (issueResult m bytes s)
  | pixel (p : BitVec 35) (x : Sample) : Effect s (.pixel p x) (hostPixelWrite p x s)
  | cycle (a : List Turn) : Effect s .cycle { s with agenda := a }

theorem Effect.of_issueStep {s t : State} (c : Cause) (h : issueStep s = .next t) : Effect s c t := by
  rcases issueStep_next h with ⟨-, rfl⟩ | ⟨he, m, bytes, hm, hb, rfl⟩
  · exact .same c
  · exact .issue c m bytes he hm hb

theorem Effect.of_guarded_issue {s t : State} {p : Prop} [Decidable p] (c : Cause)
    (h : (if p then issueStep s else .next s) = .next t) : Effect s c t := by
  split at h
  · exact .of_issueStep c h
  · cases h; exact .same c

/-- What exec can do, if it answers a next state. -/
theorem exec_effect {i : Instr} {s t : State} (h : exec i s = .next t) : Effect s (.op i) t := by
  cases i with
  | rdCtrl => cases h; exact .read _ _
  | rdStatus => cases h; exact .read _ _
  | rdWidthPx => cases h; exact .read _ _
  | rdHeight => cases h; exact .read _ _
  | rdGeometry => cases h; exact .read _ _
  | rdPayloadLen => cases h; exact .read _ _
  | rdBytesSent => cases h; exact .read _ _
  | rdCursor => cases h; exact .read _ _
  | rdChunkIdx => cases h; exact .read _ _
  | rdParams => cases h; exact .read _ _
  | rdRsvd slot => cases h; exact .read _ _
  | cmdNop => cases h; exact .same _
  | cmdStart =>
    rcases execCmdStart_next h with ⟨-, rfl⟩ | ⟨hb, rfl⟩
    · exact .same _
    · exact .start hb
  | cmdClear =>
    rcases execCmdClear_next h with ⟨-, rfl⟩ | ⟨he, rfl⟩
    · exact .same _
    · exact .clear he
  | cmdRsvd cmd => cases h; exact .same _
  | wrWidthPx v => cases h; exact .width v
  | wrHeight v => cases h; exact .height v
  | wrIgnored slot => cases h; exact .same _
  | rspOk =>
    rcases execRspOk_next h with ⟨-, rfl⟩ | ⟨hi, m, hm, rfl⟩
    · exact .same _
    · exact .confirm m hi hm
  | rspFail =>
    rcases execRspFail_next h with ⟨-, rfl⟩ | ⟨hi, g, hg, rfl⟩
    · exact .same _
    · exact .failure g hi hg
  | reset => cases h; exact .reset
  | wireEscAt => exact .of_guarded_issue _ h
  | wireGsV0 wb ht => exact .of_guarded_issue _ h
  | wireRasterData bytes => exact .of_guarded_issue _ h
  | wireEscD0 => exact .of_guarded_issue _ h

/-- The turn that stands for a cause at the head of the agenda. -/
def Caused (s : State) (rest : List Turn) : Cause → Prop
  | .op i => ∃ raw, s.agenda = .op raw :: rest ∧ decode raw = .ok i
  | .block => s.agenda = .block :: rest ∨ (s.agenda = [] ∧ rest = [])
  | .pixel p x => s.agenda = .pixel p x :: rest
  | .cycle => ∃ r k h, s.agenda = .together r k h :: rest

/-- What a step can do, if it answers a next state: the turn is taken off the agenda and has its effect. -/
theorem step_effect {s t : State} (h : step s = .next t) :
    ∃ rest c, Caused s rest c ∧ Effect { s with agenda := rest } c t := by
  unfold step at h
  split at h
  · rename_i ha
    refine ⟨[], .block, .inr ⟨ha, rfl⟩, ?_⟩
    have : ({ s with agenda := [] } : State) = s := by rw [← ha]
    rw [this]
    exact .of_issueStep _ h
  · rename_i turn rest ha
    cases turn with
    | op raw =>
      simp only [turnStep, rawStep] at h
      split at h
      · rename_i i hd
        exact ⟨rest, .op i, ⟨raw, ha, hd⟩, exec_effect h⟩
      · cases h
    | block => exact ⟨rest, .block, .inl ha, .of_issueStep _ h⟩
    | pixel p x => cases h; exact ⟨rest, .pixel p x, ha, .pixel p x⟩
    | together r k host => cases h; exact ⟨rest, .cycle, ⟨r, k, host, ha⟩, .cycle _⟩

/-- A step whose turn is a decoded operation is exec of it. -/
theorem step_of_op {s : State} {raw rest i} (ha : s.agenda = .op raw :: rest) (hd : decode raw = .ok i) :
    step s = exec i { s with agenda := rest } := by
  simp [step, ha, turnStep, rawStep, hd]

theorem step_of_block {s : State} {rest} (ha : s.agenda = .block :: rest) :
    step s = issueStep { s with agenda := rest } := by
  simp [step, ha, turnStep]

theorem step_of_pixel {s : State} {p x rest} (ha : s.agenda = .pixel p x :: rest) :
    step s = .next (hostPixelWrite p x { s with agenda := rest }) := by
  simp [step, ha, turnStep]

/-! ### The helpers of the current write do not look at the agenda or the records -/

@[simp] theorem isBusy_agenda (s : State) (a) : isBusy { s with agenda := a } = isBusy s := rfl
@[simp] theorem jobEnd_agenda (s : State) (a) : jobEnd { s with agenda := a } = jobEnd s := rfl
@[simp] theorem geomWb_agenda (s : State) (a) : geomWb { s with agenda := a } = geomWb s := rfl
@[simp] theorem geomHt_agenda (s : State) (a) : geomHt { s with agenda := a } = geomHt s := rfl
@[simp] theorem curLen_agenda (s : State) (a) : curLen { s with agenda := a } = curLen s := rfl
@[simp] theorem curBytes_agenda (s : State) (a) : curBytes { s with agenda := a } = curBytes s := rfl
@[simp] theorem stageOf_agenda (s : State) (a) : stageOf { s with agenda := a } = stageOf s := rfl
@[simp] theorem issueEnabled_agenda (s : State) (a) : issueEnabled { s with agenda := a } = issueEnabled s := rfl

end Sys2Proof.Machine
end

