-- ==== Sys2Proof/Laws/Encoding.lean ====
section
/-! SUPPORT. The fields of a host-bus word: what each field of a word built from fields is, and how masking acts on it
(30_encoding.md R71). -/

namespace Sys2Proof

/-- Every bit of a host-bus word, by the field it lies in. -/
theorem hbTransaction_getLsbD (we : BitVec 1) (slot : BitVec 6) (low : BitVec 2) (wdata : BitVec 32) (i : Nat) :
    (hbTransaction we slot low wdata).getLsbD i =
      if i < 32 then wdata.getLsbD i
      else if i < 34 then low.getLsbD (i - 32)
      else if i < 40 then slot.getLsbD (i - 34)
      else we.getLsbD (i - 40) := by
  show BitVec.getLsbD (w := 1 + (6 + (2 + 32))) (we ++ (slot ++ (low ++ wdata))) i = _
  simp only [BitVec.getLsbD_append]
  grind

@[simp] theorem hbWe_hbTransaction (we slot low wdata) : hbWe (hbTransaction we slot low wdata) = we := by
  apply BitVec.eq_of_getLsbD_eq
  intro i hi
  simp only [hbWe, BitVec.getLsbD_extractLsb', hbTransaction_getLsbD]
  grind

@[simp] theorem hbSlot_hbTransaction (we slot low wdata) : hbSlot (hbTransaction we slot low wdata) = slot := by
  apply BitVec.eq_of_getLsbD_eq
  intro i hi
  simp only [hbSlot, BitVec.getLsbD_extractLsb', hbTransaction_getLsbD]
  grind

@[simp] theorem hbWdata_hbTransaction (we slot low wdata) : hbWdata (hbTransaction we slot low wdata) = wdata := by
  apply BitVec.eq_of_getLsbD_eq
  intro i hi
  simp only [hbWdata, BitVec.getLsbD_extractLsb', hbTransaction_getLsbD]
  grind

/-- A read of a slot decodes by the slot alone (R60, R72). -/
theorem decode_read (slot low wdata) : decode (.hb (hbTransaction 0 slot low wdata)) = .ok (decodeRead slot) := by
  simp [decode, decodeHb]

/-- A write of a slot decodes by the slot and WDATA (R60, R72). -/
theorem decode_write (slot low wdata) :
    decode (.hb (hbTransaction 1 slot low wdata)) = .ok (decodeWrite slot wdata) := by
  simp [decode, decodeHb]

/-- Masking a host-bus word masks each field. -/
theorem hbTransaction_and (we we' : BitVec 1) (slot slot' : BitVec 6) (low low' : BitVec 2) (wdata wdata' : BitVec 32) :
    hbTransaction we slot low wdata &&& hbTransaction we' slot' low' wdata' =
      hbTransaction (we &&& we') (slot &&& slot') (low &&& low') (wdata &&& wdata') := by
  apply BitVec.eq_of_getLsbD_eq
  intro i hi
  simp only [BitVec.getLsbD_and, hbTransaction_getLsbD]
  grind

/-- A 16-bit field is its high and low byte joined (20_memory.md R56). -/
@[simp] theorem joinBytes_split (v : BitVec 16) : joinBytes (lowByte v) (highByte v) = v := by
  apply BitVec.eq_of_getLsbD_eq
  intro i hi
  show BitVec.getLsbD (w := 8 + 8) (highByte v ++ lowByte v) i = _
  rw [BitVec.getLsbD_append]
  simp only [lowByte, highByte, BitVec.getLsbD_extractLsb']
  grind

end Sys2Proof
end

