-- ==== Sys2Proof/Laws/Memory.lean ====
section
/-! SUPPORT. Pixel memory: reading what was written, leaving every other address alone, and keeping the canonical form
(20_memory.md R52; Memory.wf). -/

namespace Sys2Proof.Machine

/-- Reading after one byte was written. -/
theorem memGet_memSet (m : Memory) (k : Nat) (v : Byte) (a : Nat) :
    memGet (memSet m k v) a = if a = k then some v else memGet m a := by
  induction m with
  | nil => simp [memSet, memGet, eq_comm]
  | cons c rest ih =>
    obtain ⟨b, w⟩ := c
    simp only [memSet]
    split
    · simp only [memGet, eq_comm (a := k)]
    · split
      · rename_i hk; subst hk
        simp only [memGet]
        split <;> simp_all [eq_comm]
      · rename_i hlt hne
        simp only [memGet, ih]
        split
        · rename_i hb; subst hb; simp [Ne.symm hne]
        · rfl

/-- A byte that is written reads as it was written, whatever the free values are. -/
theorem pixelByte_of_memGet {m : Memory} {a : Nat} {b : Byte} (h : memGet m a = some b) (draw : Nat) :
    pixelByte m draw a = b := by
  simp [pixelByte, h]

/-- The byte PTX reads depends on the memory only through that address. -/
theorem pixelByte_congr {m n : Memory} {a : Nat} (h : memGet m a = memGet n a) (draw : Nat) :
    pixelByte m draw a = pixelByte n draw a := by
  simp [pixelByte, h]

/-- Every address of a written memory is the written one or was there. -/
theorem mem_memSet {m : Memory} {k : Nat} {v : Byte} {c : Host.Cell} (h : c ∈ memSet m k v) :
    c = (k, v) ∨ c ∈ m := by
  induction m with
  | nil => simpa [memSet] using h
  | cons d rest ih =>
    simp only [memSet] at h
    split at h
    · simpa using h
    · split at h
      · rcases List.mem_cons.mp h with h | h
        · exact .inl h
        · exact .inr (List.mem_cons_of_mem _ h)
      · rcases List.mem_cons.mp h with h | h
        · exact .inr (h ▸ List.mem_cons_self)
        · exact (ih h).imp id (List.mem_cons_of_mem _)

/-- Writing one byte keeps the addresses strictly rising. -/
theorem memSet_sorted {m : Memory} (k : Nat) (v : Byte) (h : m.Pairwise (fun x y => x.1 < y.1)) :
    (memSet m k v).Pairwise (fun x y => x.1 < y.1) := by
  induction m with
  | nil => simp [memSet]
  | cons d rest ih =>
    obtain ⟨b, w⟩ := d
    obtain ⟨hd, hr⟩ := List.pairwise_cons.mp h
    simp only [memSet]
    split
    · rename_i hlt
      refine List.pairwise_cons.mpr ⟨fun c hc => ?_, h⟩
      rcases List.mem_cons.mp hc with rfl | hc
      · exact hlt
      · exact Nat.lt_trans hlt (hd c hc)
    · split
      · rename_i hk; subst hk
        exact List.pairwise_cons.mpr ⟨fun c hc => hd c hc, hr⟩
      · rename_i h1 h2
        refine List.pairwise_cons.mpr ⟨fun c hc => ?_, ih hr⟩
        rcases mem_memSet hc with rfl | hc
        · exact Nat.lt_of_le_of_ne (Nat.not_lt.mp h1) (Ne.symm h2)
        · exact hd c hc

/-- Writing one byte inside the address range keeps the canonical form. -/
theorem memSet_wf {m : Memory} {k : Nat} (v : Byte) (h : Memory.wf m) (hlo : Config.pmBase ≤ k)
    (hhi : k < Config.pmBase + Config.sampleBytes * Config.pmSamples) : Memory.wf (memSet m k v) := by
  refine ⟨memSet_sorted k v h.1, fun c hc => ?_⟩
  rcases mem_memSet hc with rfl | hc
  · exact ⟨hlo, hhi⟩
  · exact h.2 c hc

/-- The four bytes of a sample with a 35-bit index lie inside the address range. -/
theorem sampleAddr_bounds (p : BitVec 35) {k : Nat} (hk : k < 4) :
    Config.pmBase ≤ sampleAddr p.toNat k ∧
      sampleAddr p.toNat k < Config.pmBase + Config.sampleBytes * Config.pmSamples := by
  have hp := p.isLt
  simp only [sampleAddr, Config.pmBase, Config.sampleBytes, Config.pmSamples]
  omega

/-- Writing a sample keeps the canonical form. -/
theorem writeSample_wf {m : Memory} (p : BitVec 35) (x : Sample) (h : Memory.wf m) :
    Memory.wf (writeSample m p.toNat x) := by
  have b := fun k hk => sampleAddr_bounds p (k := k) hk
  exact memSet_wf _ (memSet_wf _ (memSet_wf _ (memSet_wf _ h (b 0 (by omega)).1 (b 0 (by omega)).2)
    (b 1 (by omega)).1 (b 1 (by omega)).2) (b 2 (by omega)).1 (b 2 (by omega)).2) (b 3 (by omega)).1 (b 3 (by omega)).2

/-- The empty memory, pixel memory at reset, is in canonical form. -/
theorem Memory.wf_nil : Memory.wf [] := ⟨List.Pairwise.nil, by simp⟩

end Sys2Proof.Machine
end

