-- ==== Sys2Proof/Laws/PerInstr.lean ====
section
/-! SUPPORT. The per-instruction family EncodeInTable: what the encoder writes for a well-formed operation lies in a row
of spec/opcode_table.json with the operation's own mnemonic. -/

namespace Sys2Proof.Laws.EncodeInTable

/-- Whether these bits lie in a row of the table with this mnemonic: match and mask for HB, RSP and signal rows, the
byte pattern for wire rows. -/
def inTable (m : String) : RawOp → Bool
  | .hb w => hbRows.any (fun r => r.1 == m && (w &&& r.2.2) == r.2.1)
  | .rsp ok => (m == "RSP_OK" && ok == 1) || (m == "RSP_FAIL" && ok == 0)
  | .signal level => m == "RESET" && level == 1
  | .hdr bytes =>
    (m == "WIRE_ESC_AT" && bytes == [0x1B, 0x40]) ||
      (m == "WIRE_GS_V_0" && bytes.length == 8 && bytes.take 4 == [0x1D, 0x76, 0x30, 0x00])
  | .pay bytes => m == "WIRE_RASTER_DATA" && decide (1 ≤ bytes.length ∧ bytes.length ≤ 128)
  | .trl bytes => m == "WIRE_ESC_D_0" && bytes == [0x1B, 0x64, 0x00]

/-- The family's statement about one instruction. -/
def Statement (i : Instr) : Prop := i.wf = true → inTable (mnemonicOf i) (encode i) = true

theorem rdCtrl : Statement .rdCtrl := fun _ => by decide
theorem rdStatus : Statement .rdStatus := fun _ => by decide
theorem rdWidthPx : Statement .rdWidthPx := fun _ => by decide
theorem rdHeight : Statement .rdHeight := fun _ => by decide
theorem rdGeometry : Statement .rdGeometry := fun _ => by decide
theorem rdPayloadLen : Statement .rdPayloadLen := fun _ => by decide
theorem rdBytesSent : Statement .rdBytesSent := fun _ => by decide
theorem rdCursor : Statement .rdCursor := fun _ => by decide
theorem rdChunkIdx : Statement .rdChunkIdx := fun _ => by decide
theorem rdParams : Statement .rdParams := fun _ => by decide
theorem cmdNop : Statement .cmdNop := fun _ => by decide
theorem cmdStart : Statement .cmdStart := fun _ => by decide
theorem cmdClear : Statement .cmdClear := fun _ => by decide
theorem rspOk : Statement .rspOk := fun _ => by decide
theorem rspFail : Statement .rspFail := fun _ => by decide
theorem reset : Statement .reset := fun _ => by decide
theorem wireEscAt : Statement .wireEscAt := fun _ => by decide
theorem wireEscD0 : Statement .wireEscD0 := fun _ => by decide

theorem rdRsvd (slot : BitVec 6) : Statement (.rdRsvd slot) := by
  unfold Statement; revert slot; decide +kernel

theorem cmdRsvd (cmd : BitVec 4) : Statement (.cmdRsvd cmd) := by
  unfold Statement; revert cmd; decide +kernel

theorem wrIgnored (slot : BitVec 6) : Statement (.wrIgnored slot) := by
  unfold Statement; revert slot; decide +kernel

/-- A write of any value matches a row whose mask covers WE and the slot alone. -/
theorem writeWord_matches (slot : BitVec 6) (value : BitVec 32) :
    hbWord 1 slot value &&& hbTransaction 1 63 0 0 = hbTransaction 1 slot 0 0 := by
  rw [hbWord, hbTransaction_and]
  simp
  congr 1
  revert slot; decide

theorem wrWidthPx (value : BitVec 32) : Statement (.wrWidthPx value) := fun _ =>
  List.any_eq_true.mpr ⟨("WR_WIDTH_PX", 0x10800000000, 0x1FC00000000), by decide, by
    have h := writeWord_matches 2 value
    rw [show hbTransaction 1 63 0 0 = 0x1FC00000000 from by decide,
      show hbTransaction 1 2 0 0 = 0x10800000000 from by decide] at h
    exact Bool.and_eq_true_iff.mpr ⟨rfl, decide_eq_true h⟩⟩

theorem wrHeight (value : BitVec 32) : Statement (.wrHeight value) := fun _ =>
  List.any_eq_true.mpr ⟨("WR_HEIGHT", 0x10C00000000, 0x1FC00000000), by decide, by
    have h := writeWord_matches 3 value
    rw [show hbTransaction 1 63 0 0 = 0x1FC00000000 from by decide,
      show hbTransaction 1 3 0 0 = 0x10C00000000 from by decide] at h
    exact Bool.and_eq_true_iff.mpr ⟨rfl, decide_eq_true h⟩⟩

theorem wireGsV0 (wb ht : BitVec 16) : Statement (.wireGsV0 wb ht) := fun _ => rfl

theorem wireRasterData (chunk : List Byte) : Statement (.wireRasterData chunk) := by
  intro h
  have hlen : 1 ≤ chunk.length ∧ chunk.length ≤ Config.maxWriteLen := by
    simpa [Instr.wf, payloadWriteLen] using h
  exact Bool.and_eq_true_iff.mpr ⟨rfl, decide_eq_true hlen⟩

end Sys2Proof.Laws.EncodeInTable
end

