-- ==== Sys2Proof/Tests/Slice0.lean ====
section
/-! SUPPORT. The model's own tests: ill-formed terms, words written out from the spec's encodings, one-step tests with
the values of 95_test_vectors.md, and for each statement with hypotheses a witness that meets them. -/

namespace Sys2Proof.Tests

open Sys2Proof Sys2Proof.Machine Sys2Proof.Claims

/-! ### WellFormed: an ill-formed term for each check (R72, R74, R81) -/

theorem test_wf_rdRsvd : (Instr.rdRsvd 9).wf = false ∧ (Instr.rdRsvd 10).wf = true := by decide
theorem test_wf_cmdRsvd : (Instr.cmdRsvd 2).wf = false ∧ (Instr.cmdRsvd 3).wf = true := by decide
theorem test_wf_wrIgnored_config :
    (Instr.wrIgnored 0).wf = false ∧ (Instr.wrIgnored 2).wf = false ∧ (Instr.wrIgnored 3).wf = false := by decide
theorem test_wf_wrIgnored_ok : (Instr.wrIgnored 1).wf = true ∧ (Instr.wrIgnored 63).wf = true := by decide
theorem test_wf_wireRasterData :
    (Instr.wireRasterData []).wf = false ∧ (Instr.wireRasterData (List.replicate 129 0)).wf = false ∧
      (Instr.wireRasterData (List.replicate 128 0)).wf = true := by decide +kernel

/-! ### Decode: a word for every constructor, from R71 to R78, R82, R86 and the programs of 95_test_vectors.md -/

theorem test_decode_rdCtrl : decode (.hb 0x00000000000) = .ok .rdCtrl := by decide
theorem test_decode_rdStatus : decode (.hb 0x00400000000) = .ok .rdStatus := by decide
theorem test_decode_rdWidthPx : decode (.hb 0x00800000000) = .ok .rdWidthPx := by decide
theorem test_decode_rdHeight : decode (.hb 0x00C00000000) = .ok .rdHeight := by decide
theorem test_decode_rdGeometry : decode (.hb 0x01000000000) = .ok .rdGeometry := by decide
theorem test_decode_rdPayloadLen : decode (.hb 0x01400000000) = .ok .rdPayloadLen := by decide
theorem test_decode_rdBytesSent : decode (.hb 0x01800000000) = .ok .rdBytesSent := by decide
theorem test_decode_rdCursor : decode (.hb 0x01C00000000) = .ok .rdCursor := by decide
theorem test_decode_rdChunkIdx : decode (.hb 0x02000000000) = .ok .rdChunkIdx := by decide
theorem test_decode_rdParams : decode (.hb 0x02400000000) = .ok .rdParams := by decide
theorem test_decode_rdRsvd :
    decode (.hb 0x02800000000) = .ok (.rdRsvd 10) ∧ decode (.hb 0x0FC00000000) = .ok (.rdRsvd 63) := by decide
/-- `W 0x00, 0xFFFFFFF0` is a CMD_NOP (R173). -/
theorem test_decode_cmdNop : decode (.hb 0x100FFFFFFF0) = .ok .cmdNop := by decide
/-- `W 0x00, 0x11` and `W 0x01, 0x1` are CMD_START: WDATA[31:4] and ADDR[1:0] are ignored. -/
theorem test_decode_cmdStart :
    decode (.hb 0x10000000011) = .ok .cmdStart ∧ decode (.hb 0x10100000001) = .ok .cmdStart := by decide
theorem test_decode_cmdClear : decode (.hb 0x10000000002) = .ok .cmdClear := by decide
theorem test_decode_cmdRsvd :
    decode (.hb 0x10000000003) = .ok (.cmdRsvd 3) ∧ decode (.hb 0x1000000000F) = .ok (.cmdRsvd 15) := by decide
theorem test_decode_wrWidthPx : decode (.hb 0x10800080000) = .ok (.wrWidthPx 524288) := by decide
theorem test_decode_wrHeight : decode (.hb 0x10C0000012C) = .ok (.wrHeight 300) := by decide
/-- `W 0x04`, `W 0x18, 0x5` and `W 0xFC` write a read-only or reserved slot. -/
theorem test_decode_wrIgnored :
    decode (.hb 0x10400000000) = .ok (.wrIgnored 1) ∧ decode (.hb 0x11800000005) = .ok (.wrIgnored 6) ∧
      decode (.hb 0x1FC00000000) = .ok (.wrIgnored 63) := by decide
theorem test_decode_rspOk : decode (.rsp 1) = .ok .rspOk := by decide
theorem test_decode_rspFail : decode (.rsp 0) = .ok .rspFail := by decide
theorem test_decode_reset : decode (.signal 1) = .ok .reset := by decide
theorem test_decode_wireEscAt : decode (.hdr [0x1B, 0x40]) = .ok .wireEscAt := by decide
/-- hdr(257, 513): 01 01 01 02 at bytes 6 to 9. -/
theorem test_decode_wireGsV0 :
    decode (.hdr [0x1D, 0x76, 0x30, 0x00, 0x01, 0x01, 0x01, 0x02]) = .ok (.wireGsV0 257 513) := by decide
theorem test_decode_wireRasterData : decode (.pay [0xAA]) = .ok (.wireRasterData [0xAA]) := by decide
theorem test_decode_wireEscD0 : decode (.trl [0x1B, 0x64, 0x00]) = .ok .wireEscD0 := by decide
/-- What is no row of the table is rejected by name. -/
theorem test_decode_rejects :
    decode (.signal 0) = .error .resetNotAsserted ∧ decode (.hdr [0x1B, 0x41]) = .error .notHeaderCommand ∧
      decode (.pay []) = .error .notPayloadWrite ∧ decode (.trl [0x1B, 0x64, 0x01]) = .error .notTrailer := by decide

/-! ### Table words (log 6, log 7) -/

theorem test_tableWord_hb :
    decodeTableWord 48 0x10000000001 = some .cmdStart ∧ decodeTableWord 48 0x1FC00000000 = some (.wrIgnored 63) := by
  decide
theorem test_tableWord_rsp : decodeTableWord 8 1 = some .rspOk ∧ decodeTableWord 8 0 = some .rspFail := by decide
theorem test_tableWord_wire :
    decodeTableWord 16 0x1B40 = some .wireEscAt ∧ decodeTableWord 64 0x1D76300005001801 = some (.wireGsV0 5 280) ∧
      decodeTableWord 8 0x81 = some (.wireRasterData [0x81]) ∧ decodeTableWord 24 0x1B6400 = some .wireEscD0 := by
  decide
theorem test_tableWord_none : decodeTableWord 16 0x1B41 = none ∧ decodeTableWord 48 (2 ^ 41) = none := by decide

/-! ### States -/

/-- A field of the next state; `none` where there is none. -/
def after {α : Type} (o : Host.Outcome State Fault Refusal) (f : State → α) : Option α :=
  match o with
  | .next s => some (f s)
  | .fault _ => none
  | .refused _ => none

/-- The three writes of the job of one byte 0x80 (W = 8, H = 1), from R75 to R78 and R81. -/
def tinyWrites : List WriteReq :=
  [⟨10, [0x1B, 0x40, 0x1D, 0x76, 0x30, 0x00, 0x01, 0x00, 0x01, 0x00]⟩, ⟨1, [0x80]⟩, ⟨3, [0x1B, 0x64, 0x00]⟩]

/-- That job in STATE `q` with `k` writes confirmed and perhaps one in flight; its counters are those of R37. -/
def tiny (q : SeqState) (k : Nat) (inflight : Bool) : State :=
  { State.reset with
    seqState := q, widthPx := 8, height := 1, geometry := 0x00010001, payloadLen := 1
    chunkIdx := if 2 ≤ k then 1 else 0
    cursor := if 2 ≤ k then 1 else 0
    bytesSent := if k = 0 then 0 else if k = 1 then 10 else if k = 2 then 11 else 14
    inflight := inflight
    bm := [0x80]
    cs := tinyWrites.take (k + if inflight then 1 else 0)
    delivered := tinyWrites.take k
    progress := [10, 11, 14].take k }

/-- That job failed by the channel in its header write. -/
def tinyFailed : State :=
  { tiny .failed 0 false with errCode := .channelWriteFailed, errStage := .header, cs := tinyWrites.take 1 }

/-- A state with these turns to come. -/
def turns (s : State) (a : List Turn) : State := { s with agenda := a }

/-- The job of L = 300 (W = 8, H = 300) with its third chunk in flight, all pixels white (95_test_vectors.md 2.3). -/
def thirdChunk : State :=
  { State.reset with
    seqState := .sendChunk, geometry := 0x012C0001, payloadLen := 300, chunkIdx := 2, cursor := 256, bytesSent := 266
    inflight := true, bm := List.replicate 300 0 }

/-- A pixel memory of n samples, black where listed and white elsewhere. -/
def painted (n : Nat) (black : List Nat) : Memory :=
  (List.range n).foldl (fun m p => writeSample m p (if p ∈ black then ⟨0, 0, 0, 0⟩ else ⟨255, 255, 255, 255⟩)) []

/-- IDLE with these dimensions written. -/
def configured (w h : Word) : State := { State.reset with widthPx := w, height := h }

/-! ### One step each, with the values of 95_test_vectors.md -/

theorem test_rdCtrl : after (exec .rdCtrl thirdChunk) (·.reads) = some [0] := by decide
/-- A payload write in flight: 0xC02. -/
theorem test_rdStatus_inflight : after (exec .rdStatus thirdChunk) (·.reads) = some [0xC02] := by decide
/-- After a header failure: 0x1135 (R162). -/
theorem test_rdStatus_failed : after (exec .rdStatus tinyFailed) (·.reads) = some [0x1135] := by decide
theorem test_rdWidthPx : after (exec .rdWidthPx (configured 12 300)) (·.reads) = some [12] := by decide
theorem test_rdHeight : after (exec .rdHeight (configured 12 300)) (·.reads) = some [300] := by decide
theorem test_rdGeometry : after (exec .rdGeometry thirdChunk) (·.reads) = some [0x012C0001] := by decide
theorem test_rdPayloadLen : after (exec .rdPayloadLen thirdChunk) (·.reads) = some [0x12C] := by decide
theorem test_rdBytesSent : after (exec .rdBytesSent thirdChunk) (·.reads) = some [0x10A] := by decide
theorem test_rdCursor : after (exec .rdCursor thirdChunk) (·.reads) = some [0x100] := by decide
theorem test_rdChunkIdx : after (exec .rdChunkIdx thirdChunk) (·.reads) = some [2] := by decide
theorem test_rdParams : after (exec .rdParams thirdChunk) (·.reads) = some [0x00030A80] := by decide
theorem test_rdRsvd : after (exec (.rdRsvd 10) thirdChunk) (·.reads) = some [0] := by decide
theorem test_cmdNop : after (exec .cmdNop (tiny .done 3 false)) id = some (tiny .done 3 false) := by decide
theorem test_cmdRsvd : after (exec (.cmdRsvd 3) (tiny .done 3 false)) id = some (tiny .done 3 false) := by decide
/-- W = 0 with H = 65536 reports DIMENSION_OVERFLOW: 0x1025 (R207). -/
theorem test_cmdStart_overflowFirst : after (exec .cmdStart (configured 0 65536)) statusWord = some 0x1025 := by decide
/-- W = 524280, H = 65535: the largest job. -/
theorem test_cmdStart_largest :
    after (exec .cmdStart (configured 524280 65535)) (fun s => (statusWord s, s.geometry, s.payloadLen)) =
      some (0x801, 0xFFFFFFFF, 4294836225) := by decide
theorem test_cmdClear : after (exec .cmdClear tinyFailed) statusWord = some 0 := by decide
/-- CLEAR while busy is ignored. -/
theorem test_cmdClear_busy : after (exec .cmdClear thirdChunk) statusWord = some 0xC02 := by decide
/-- A write of WIDTH_PX during the job leaves GEOMETRY alone. -/
theorem test_wrWidthPx :
    after (exec (.wrWidthPx 16) thirdChunk) (fun s => (s.widthPx, s.geometry)) = some (16, 0x012C0001) := by decide
theorem test_wrHeight : after (exec (.wrHeight 2) thirdChunk) (fun s => (s.height, s.widthPx)) = some (2, 0) := by decide
theorem test_wrIgnored : after (exec (.wrIgnored 6) thirdChunk) (·.bytesSent) = some 266 := by decide
/-- R142's example: m = 44, BYTES_SENT 310, CURSOR 300, CHUNK_IDX 3, SEND_TRL, Progress(310). -/
theorem test_rspOk :
    after (exec .rspOk thirdChunk) (fun s => (s.bytesSent, s.cursor, s.chunkIdx, s.seqState, s.progress)) =
      some (310, 300, 3, .sendTrl, [310]) := by decide
/-- R143's example: FAILED, stage PAYLOAD, BYTES_SENT 266, CURSOR 256, CHUNK_IDX 2; STATUS 0x1235. -/
theorem test_rspFail :
    after (exec .rspFail thirdChunk) (fun s => (statusWord s, s.bytesSent, s.cursor, s.chunkIdx, s.progress)) =
      some (0x1235, 266, 256, 2, []) := by decide
theorem test_reset :
    after (exec .reset thirdChunk) (fun s => (statusWord s, s.widthPx, s.bytesSent, s.cs)) = some (0, 0, 0, []) := by
  decide
/-- R141: ISSUE presents the header of GEOMETRY 0x00010001 and sets INFLIGHT. -/
theorem test_wireEscAt :
    after (exec .wireEscAt (tiny .sendHdr 0 false)) (fun s => (s.cs, statusWord s)) = some (tinyWrites.take 1, 0xC01) := by
  decide
theorem test_wireGsV0_other : after (exec (.wireGsV0 1 2) (tiny .sendHdr 0 false)) (·.cs) = some [] := by decide
theorem test_wireRasterData :
    after (exec (.wireRasterData [0x80]) (tiny .sendChunk 1 false)) (·.cs) = some (tinyWrites.take 2) := by decide
theorem test_wireEscD0 :
    after (exec .wireEscD0 (tiny .sendTrl 2 false)) (·.cs) = some tinyWrites := by decide

/-! ### The shared functions and the other agents -/

/-- The sum 256 of (255, 1, 0) is not ink (R101). -/
theorem test_ink : ink ⟨0, 0, 0, 128⟩ = true ∧ ink ⟨255, 1, 0, 255⟩ = false ∧ ink ⟨128, 128, 0, 0⟩ = false := by decide
/-- R103's example: W = 16, H = 2 gives 81 80 00 01. -/
theorem test_encodeImage : encodeImage (painted 32 [0, 7, 8, 31]) 0 16 2 = [0x81, 0x80, 0x00, 0x01] := by decide +kernel
/-- The source's header: hdr(5, 280). -/
theorem test_hdr : hdr 5 280 = [0x1B, 0x40, 0x1D, 0x76, 0x30, 0x00, 5, 0, 24, 1] := by decide
/-- The source's chunks of 300 bytes, and no empty chunk after 128. -/
theorem test_chunkLen :
    (List.range (chunkCount 300)).map (chunkLen 300) = [128, 128, 44] ∧ chunkCount 128 = 1 ∧ chunkCount 129 = 2 := by decide
/-- The cumulative counts of L = 300. -/
theorem test_acc : (List.range 5).map (acc 300) = [10, 138, 266, 310, 313] := by decide
/-- A host write of sample 1 lands at byte addresses 4 to 7. -/
theorem test_pixelWrite :
    after (step (turns State.reset [.pixel 1 ⟨1, 2, 3, 4⟩])) (·.pm) = some [(4, 1), (5, 2), (6, 3), (7, 4)] := by decide
/-- The first operation after reset, placed where step takes it. -/
theorem test_withFetchWord :
    after (step (State.reset.withFetchWord 48 0x10800000010)) (fun s => (s.widthPx, s.agenda)) = some (16, []) := by decide

/-! ### Sound states -/

/-- Soundness does not look at the agenda. -/
theorem sound_turns {s : State} (h : Sound s) (a : List Turn) : Sound (turns s a) :=
  ⟨h.session, h.bitmap, h.pixels, h.issued, h.confirmed, h.reported⟩

theorem sound_reset : Sound State.reset := by
  refine ⟨?_, by decide, by decide, ⟨[], by decide⟩, ⟨[], by decide⟩, ⟨[], by decide⟩⟩
  show NoSession State.reset ∧ NoError State.reset ∧ State.reset.inflight = false
  simp only [NoSession, Counters, NoError]; decide

theorem sound_hdr : Sound (tiny .sendHdr 0 false) := by
  refine ⟨?_, by decide, by decide, ⟨[], by decide⟩, ⟨[], by decide⟩, ⟨[], by decide⟩⟩
  show HeaderRow (tiny .sendHdr 0 false) ∧ NoError (tiny .sendHdr 0 false)
  simp only [HeaderRow, ValidGeometry, Counters, NoError]; decide

theorem sound_hdrInflight : Sound (tiny .sendHdr 0 true) := by
  refine ⟨?_, by decide, by decide, ⟨[], by decide⟩, ⟨[], by decide⟩, ⟨[], by decide⟩⟩
  show HeaderRow (tiny .sendHdr 0 true) ∧ NoError (tiny .sendHdr 0 true)
  simp only [HeaderRow, ValidGeometry, Counters, NoError]; decide

theorem sound_chunk : Sound (tiny .sendChunk 1 false) := by
  refine ⟨?_, by decide, by decide, ⟨[], by decide⟩, ⟨[], by decide⟩, ⟨[], by decide⟩⟩
  show ChunkRow (tiny .sendChunk 1 false) ∧ NoError (tiny .sendChunk 1 false)
  simp only [ChunkRow, ValidGeometry, Counters, NoError]; decide

theorem sound_chunkInflight : Sound (tiny .sendChunk 1 true) := by
  refine ⟨?_, by decide, by decide, ⟨[], by decide⟩, ⟨[], by decide⟩, ⟨[], by decide⟩⟩
  show ChunkRow (tiny .sendChunk 1 true) ∧ NoError (tiny .sendChunk 1 true)
  simp only [ChunkRow, ValidGeometry, Counters, NoError]; decide

theorem sound_trlInflight : Sound (tiny .sendTrl 2 true) := by
  refine ⟨?_, by decide, by decide, ⟨[], by decide⟩, ⟨[], by decide⟩, ⟨[], by decide⟩⟩
  show TrailerRow (tiny .sendTrl 2 true) ∧ NoError (tiny .sendTrl 2 true)
  simp only [TrailerRow, ValidGeometry, Counters, NoError]; decide

theorem sound_done : Sound (tiny .done 3 false) := by
  refine ⟨?_, by decide, by decide, ⟨[], by decide⟩, ⟨[], by decide⟩, ⟨[], by decide⟩⟩
  show DoneRow (tiny .done 3 false) ∧ NoError (tiny .done 3 false) ∧ (tiny .done 3 false).inflight = false
  simp only [DoneRow, ValidGeometry, Counters, NoError]; decide

theorem sound_failed : Sound tinyFailed := by
  refine ⟨?_, by decide, by decide, ⟨[], by decide⟩, ⟨[], by decide⟩, ⟨[], by decide⟩⟩
  show FailedRow tinyFailed ∧ tinyFailed.inflight = false
  simp only [FailedRow, HeaderRow, ChunkRow, TrailerRow, NoSession, ValidGeometry, Counters]; decide

/-- FAILED after a START that failed validation. -/
def rejected : State := { State.reset with seqState := .failed, errCode := .invalidDimensions }

theorem sound_rejected : Sound rejected := by
  refine ⟨?_, by decide, by decide, ⟨[], by decide⟩, ⟨[], by decide⟩, ⟨[], by decide⟩⟩
  show FailedRow rejected ∧ rejected.inflight = false
  simp only [FailedRow, HeaderRow, ChunkRow, TrailerRow, NoSession, ValidGeometry, Counters]; decide

/-! ### Witnesses: for each statement with hypotheses, states and operands that meet them, clause by clause -/

/-- What is known of a field of the answer is known of a next state. -/
theorem next_of_after {α : Type} {o : Host.Outcome State Fault Refusal} {f : State → α} {v : α} (h : after o f = some v) :
    ∃ t, o = .next t ∧ f t = v := by
  cases o with
  | next t => exact ⟨t, rfl, Option.some.inj h⟩
  | fault r => cases h
  | refused r => cases h

/-- With an operation first on the agenda, NextIs speaks of what it decodes to. -/
theorem nextIs_turns {s : State} {raw : RawOp} {rest : List Turn} {i : Instr} :
    NextIs (turns s (.op raw :: rest)) i ↔ decode raw = .ok i := by
  constructor
  · rintro ⟨raw', rest', ha, hd⟩
    cases ha
    exact hd
  · exact fun hd => ⟨raw, rest, rfl, hd⟩

theorem witness_SessionRegistersRead :
    (Sound State.reset ∧ State.reset.seqState = .idle) ∧
    (Sound rejected ∧ rejected.seqState = .failed ∧ rejected.errCode ≠ .channelWriteFailed) ∧
    (Sound (tiny .sendChunk 1 false) ∧ (tiny .sendChunk 1 false).seqState = .sendChunk) ∧
    (Sound (tiny .sendTrl 2 true) ∧ (tiny .sendTrl 2 true).seqState = .sendTrl) ∧
    (Sound (tiny .done 3 false) ∧ (tiny .done 3 false).seqState = .done) :=
  ⟨⟨sound_reset, rfl⟩, ⟨sound_rejected, rfl, by decide⟩, ⟨sound_chunk, rfl⟩, ⟨sound_trlInflight, rfl⟩, sound_done, rfl⟩

theorem witness_StatusReadsItsFields :
    (NoError (tiny .sendHdr 0 true) ∧ (tiny .sendHdr 0 true).seqState = .sendHdr ∧ (tiny .sendHdr 0 true).inflight = true) ∧
    (NoError (tiny .done 3 false) ∧ (tiny .done 3 false).seqState = .done ∧ (tiny .done 3 false).inflight = false) ∧
    (tinyFailed.seqState = .failed ∧ tinyFailed.errCode = .channelWriteFailed ∧ tinyFailed.errStage = .header ∧
      tinyFailed.inflight = false) := by
  simp only [NoError]; decide

theorem witness_ReservedSlotsReadZeroAndIgnoreWrites :
    10 ≤ (10 : BitVec 6).toNat ∧ 10 ≤ (63 : BitVec 6).toNat ∧ (1 : BitVec 6).toNat = 1 ∧ 4 ≤ (4 : BitVec 6).toNat := by
  decide

/-- Each arm of START, at its boundary: busy, the least width that overflows, the greatest that does not but is invalid,
and the greatest job. -/
theorem witness_StartValidatesThenBegins :
    isBusy thirdChunk = true ∧ (isBusy (configured 524288 1) = false ∧ 524288 ≤ (configured 524288 1).widthPx.toNat) ∧
    ((configured 524287 1).widthPx.toNat < 524288 ∧ (configured 524287 1).widthPx.toNat % 8 ≠ 0) ∧
    ((configured 524280 65535).widthPx.toNat % 8 = 0 ∧ ¬ 65535 < (configured 524280 65535).height.toNat) := by decide

theorem witness_ClearLeavesEndStatesOnly :
    (tiny .done 3 false).seqState = .done ∧ tinyFailed.seqState = .failed ∧
      ¬(thirdChunk.seqState = .done ∨ thirdChunk.seqState = .failed) := by decide

theorem witness_HostAccessIsNeverRefused :
    (turns thirdChunk [.op (.hb 0x1FC00000000)]).agenda = .op (.hb 0x1FC00000000) :: [] ∧
    (turns thirdChunk [.op (.hb 0x00400000000)]).agenda = .op (.hb 0x00400000000) :: [] ∧
    BitVec.getLsbD (0x00400000000 : BitVec 41) 40 = false := by decide

theorem witness_RspOkConfirmsCurrentWrite :
    ((tiny .sendHdr 0 true).inflight = true ∧ (tiny .sendHdr 0 true).seqState = .sendHdr) ∧
    (thirdChunk.inflight = true ∧ thirdChunk.seqState = .sendChunk ∧
      thirdChunk.cursor.toNat < thirdChunk.payloadLen.toNat) ∧
    ((tiny .sendTrl 2 true).inflight = true ∧ (tiny .sendTrl 2 true).seqState = .sendTrl) := by decide

theorem witness_RspFailRecordsItsStage :
    ((tiny .sendHdr 0 true).inflight = true ∧ (tiny .sendHdr 0 true).seqState = .sendHdr) ∧
    (thirdChunk.inflight = true ∧ thirdChunk.seqState = .sendChunk) ∧
    ((tiny .sendTrl 2 true).inflight = true ∧ (tiny .sendTrl 2 true).seqState = .sendTrl) := by decide

theorem witness_ResponseWithoutWriteIsIgnored : State.reset.inflight = false ∧ (tiny .sendTrl 2 false).inflight = false := by
  decide

theorem witness_BlockIssuesTheCurrentWrite :
    ((turns State.reset [.block]).agenda = .block :: [] ∧ isBusy (turns State.reset [.block]) = false) ∧
    (turns thirdChunk [.block]).inflight = true ∧
    ((tiny .sendHdr 0 false).inflight = false ∧ (tiny .sendHdr 0 false).seqState = .sendHdr) ∧
    ((tiny .sendChunk 1 false).inflight = false ∧ (tiny .sendChunk 1 false).seqState = .sendChunk ∧
      (tiny .sendChunk 1 false).cursor.toNat < (tiny .sendChunk 1 false).payloadLen.toNat ∧
      (tiny .sendChunk 1 false).cursor.toNat + chunkBytes (tiny .sendChunk 1 false) ≤ (tiny .sendChunk 1 false).bm.length) ∧
    ((tiny .sendTrl 2 false).inflight = false ∧ (tiny .sendTrl 2 false).seqState = .sendTrl) := by decide

theorem witness_WireCommandsPresentTheirWrite :
    ((tiny .sendHdr 0 false).inflight = false ∧ (tiny .sendHdr 0 false).seqState = .sendHdr) ∧
    ((tiny .sendChunk 1 false).inflight = false ∧ (tiny .sendChunk 1 false).seqState = .sendChunk ∧
      (tiny .sendChunk 1 false).cursor.toNat + chunkBytes (tiny .sendChunk 1 false) ≤ (tiny .sendChunk 1 false).bm.length) ∧
    ((tiny .sendTrl 2 false).inflight = false ∧ (tiny .sendTrl 2 false).seqState = .sendTrl) := by decide

theorem witness_WireCommandNotDueChangesNothing :
    ¬((tiny .sendHdr 0 true).seqState = .sendHdr ∧ (tiny .sendHdr 0 true).inflight = false) ∧
    geomHt (tiny .sendHdr 0 false) ≠ 2 ∧
    ¬((tiny .sendTrl 2 false).seqState = .sendChunk ∧ (tiny .sendTrl 2 false).inflight = false) ∧
    (curBytes (tiny .sendChunk 1 false) = some [0x80] ∧ ([0x80] : List Byte) ≠ [0x81]) ∧
    ¬((tiny .sendTrl 2 true).seqState = .sendTrl ∧ (tiny .sendTrl 2 true).inflight = false) := by decide

theorem witness_OneWriteOutstanding :
    (∃ t, step (turns (tiny .sendHdr 0 false) [.block]) = .next t ∧ t.cs = tinyWrites.take 1) ∧
    (Sound (turns (tiny .sendHdr 0 true) [.op (.rsp 1)]) ∧ (tiny .sendHdr 0 true).inflight = true ∧
      ∃ t, step (turns (tiny .sendHdr 0 true) [.op (.rsp 1)]) = .next t ∧ t.inflight = false) :=
  ⟨next_of_after (f := (·.cs)) (by decide), sound_turns sound_hdrInflight _, rfl,
    next_of_after (f := (·.inflight)) (by decide)⟩

theorem witness_ChannelStreamIsAppendOnly :
    Sound (turns (tiny .sendChunk 1 false) [.block]) ∧
      ∃ t, step (turns (tiny .sendChunk 1 false) [.block]) = .next t ∧ t.cs = (tiny .sendChunk 1 false).cs ++ [⟨1, [0x80]⟩] :=
  ⟨sound_turns sound_chunk _, next_of_after (f := (·.cs)) (by decide)⟩

theorem witness_ProgressOncePerConfirmation :
    (NextIs (turns thirdChunk [.op (.rsp 1)]) .rspOk ∧ (turns thirdChunk [.op (.rsp 1)]).inflight = true ∧
      ∃ t, step (turns thirdChunk [.op (.rsp 1)]) = .next t ∧ t.progress = [310]) ∧
    (¬NextIs (turns thirdChunk [.op (.rsp 0)]) .rspOk ∧
      ∃ t, step (turns thirdChunk [.op (.rsp 0)]) = .next t ∧ t.progress = []) :=
  ⟨⟨nextIs_turns.mpr (by decide), rfl, next_of_after (f := (·.progress)) (by decide)⟩,
    fun h => absurd (nextIs_turns.mp h) (by decide), next_of_after (f := (·.progress)) (by decide)⟩

theorem witness_BytesSentCountsConfirmedBytes :
    (Sound (turns (tiny .sendChunk 1 true) [.op (.rsp 1)]) ∧ (tiny .sendChunk 1 true).bytesSent = 10 ∧
      ∃ t, step (turns (tiny .sendChunk 1 true) [.op (.rsp 1)]) = .next t ∧ t.bytesSent = 11) ∧
    ((tiny .done 3 false).bytesSent = 14 ∧
      ∃ t, step (turns (tiny .done 3 false) [.op (.hb 0x10000000002)]) = .next t ∧ t.bytesSent = 0) :=
  ⟨⟨sound_turns sound_chunkInflight _, rfl, next_of_after (f := (·.bytesSent)) (by decide)⟩, rfl,
    next_of_after (f := (·.bytesSent)) (by decide)⟩

theorem witness_JobEndRisesAndFalls :
    (jobEnd (tiny .sendTrl 2 true) = false ∧
      ∃ t, step (turns (tiny .sendTrl 2 true) [.op (.rsp 1)]) = .next t ∧ jobEnd t = true) ∧
    (jobEnd tinyFailed = true ∧ ∃ t, step (turns tinyFailed [.op (.hb 0x10000000001)]) = .next t ∧ jobEnd t = false) :=
  ⟨⟨rfl, next_of_after (f := jobEnd) (by decide)⟩, rfl, next_of_after (f := jobEnd) (by decide)⟩

/-- Sample 1 backed by four different bytes, and the second pixel of byte (0, 0). -/
theorem witness_PixReadReturnsTheStoredBytes :
    memGet [(4, 1), (5, 2), (6, 3), (7, 4)] (4 * 1) = some 1 ∧ memGet [(4, 1), (5, 2), (6, 3), (7, 4)] (4 * 1 + 1) = some 2 ∧
    memGet [(4, 1), (5, 2), (6, 3), (7, 4)] (4 * 1 + 2) = some 3 ∧
    memGet [(4, 1), (5, 2), (6, 3), (7, 4)] (4 * 1 + 3) = some 4 ∧ 1 < 8 ∧ 0 * 8 + 8 * 0 + 1 = 1 := by decide

theorem witness_PackPutsTheLeftmostPixelHighest : 0 < 8 ∧ 7 < 8 := by decide

theorem witness_EncodeIsRowMajor : 1 < 2 ∧ 1 < 16 / 8 := by decide

theorem witness_UnpackRecoversInk : 16 % 8 = 0 ∧ 1 < 2 ∧ 15 < 16 := by decide

/-- One byte, and 129 bytes: the last chunk of each, and a full one. -/
theorem witness_ChunksPartitionTheBitmap :
    1 ≤ ([0x80] : List Byte).length ∧ (List.replicate 129 (0 : Byte)).length ≤ 4294836225 ∧
      0 + 1 < ((List.replicate 129 (0 : Byte)).length + 127) / 128 := by decide +kernel

theorem witness_ScheduleSpellsTheFrame :
    1 ≤ ([0x80] : List Byte).length ∧ 0 < (([0x80] : List Byte).length + 127) / 128 := by decide

theorem witness_CumulativeCountsAddTheWrites :
    1 ≤ ([0x80] : List Byte).length ∧ 0 ≤ (([0x80] : List Byte).length + 127) / 128 + 1 ∧
      1 ≤ (([0x80] : List Byte).length + 127) / 128 ∧ 2 ≤ (([0x80] : List Byte).length + 127) / 128 + 1 := by decide

theorem witness_FrameIsReadFromItsHeader : ([0x80] : List Byte).length = (1 : BitVec 16).toNat * (1 : BitVec 16).toNat := by
  decide

theorem witness_DecodeOfEncodeIsTheInstruction :
    (Instr.rdRsvd 10).wf = true ∧ (Instr.cmdRsvd 15).wf = true ∧ (Instr.wrIgnored 4).wf = true ∧
      (Instr.wireRasterData [0]).wf = true ∧ (Instr.wireGsV0 65535 0).wf = true := by decide

theorem witness_DecoderFollowsTheOpcodeTable :
    ("CMD_START", 0x10000000001, 0x1FC0000000F) ∈ hbRows ∧
      (0x10000000011 : BitVec 41) &&& 0x1FC0000000F = 0x10000000001 := by decide

theorem witness_DecodedOperationsAreWellFormed : decode (.hb 0x1000000000F) = .ok (.cmdRsvd 15) := by decide

theorem witness_StepRunsTheDecodedInstruction :
    (turns thirdChunk [.op (.rsp 1)]).agenda = .op (.rsp 1) :: [] ∧ decode (.rsp 1) = .ok .rspOk ∧
      (turns thirdChunk [.op (.signal 0)]).agenda = .op (.signal 0) :: [] ∧
      decode (.signal 0) = .error .resetNotAsserted := by decide

theorem witness_FetchWordRunsNext : decodeTableWord 48 0x10000000002 = some .cmdClear := by decide

theorem witness_StepKeepsStatesSound :
    (Sound (turns (tiny .sendHdr 0 false) []) ∧
      ∃ t, step (turns (tiny .sendHdr 0 false) []) = .next t ∧ t.inflight = true) ∧
    (Sound (turns (tiny .sendTrl 2 true) [.op (.rsp 1)]) ∧
      ∃ t, step (turns (tiny .sendTrl 2 true) [.op (.rsp 1)]) = .next t ∧ t.seqState = .done) :=
  ⟨⟨sound_turns sound_hdr _, next_of_after (f := (·.inflight)) (by decide)⟩, sound_turns sound_trlInflight _,
    next_of_after (f := (·.seqState)) (by decide)⟩

theorem witness_SoundStatesNeverFault : Sound (tiny .sendChunk 1 false) := sound_chunk

theorem witness_ErrorAndInflightFollowState : Sound tinyFailed ∧ Sound (tiny .sendHdr 0 true) :=
  ⟨sound_failed, sound_hdrInflight⟩

theorem witness_BusyJobEndsOnlyByResponseOrReset :
    isBusy (turns (tiny .sendTrl 2 true) [.op (.rsp 1)]) = true ∧
    (∃ t, step (turns (tiny .sendTrl 2 true) [.op (.rsp 1)]) = .next t ∧ isBusy t = false) ∧
    (∃ t, step (turns (tiny .sendTrl 2 true) [.op (.rsp 0)]) = .next t ∧ isBusy t = false) ∧
    (∃ t, step (turns (tiny .sendTrl 2 true) [.op (.signal 1)]) = .next t ∧ isBusy t = false) :=
  ⟨rfl, next_of_after (f := isBusy) (by decide), next_of_after (f := isBusy) (by decide),
    next_of_after (f := isBusy) (by decide)⟩

theorem witness_FailedIsLeftByClearStartOrReset :
    tinyFailed.seqState = .failed ∧
    (∃ t, step (turns tinyFailed [.op (.hb 0x10000000002)]) = .next t ∧ t.seqState = .idle) ∧
    (∃ t, step (turns tinyFailed [.op (.hb 0x10000000001)]) = .next t ∧ t.seqState = .sendHdr) ∧
    (∃ t, step (turns tinyFailed [.op (.signal 1)]) = .next t ∧ t.seqState = .idle) :=
  ⟨rfl, next_of_after (f := (·.seqState)) (by decide), next_of_after (f := (·.seqState)) (by decide),
    next_of_after (f := (·.seqState)) (by decide)⟩

theorem witness_FailedIsEnteredOnlyByFailure :
    ((configured 12 1).seqState ≠ .failed ∧
      ∃ t, step (turns (configured 12 1) [.op (.hb 0x10000000001)]) = .next t ∧ t.seqState = .failed) ∧
    (thirdChunk.seqState ≠ .failed ∧ ∃ t, step (turns thirdChunk [.op (.rsp 0)]) = .next t ∧ t.seqState = .failed) :=
  ⟨⟨by decide, next_of_after (f := (·.seqState)) (by decide)⟩, by decide, next_of_after (f := (·.seqState)) (by decide)⟩

theorem witness_NoWriteOutsideABusyJob :
    isBusy (turns tinyFailed [.block]) = false ∧ ∃ t, step (turns tinyFailed [.block]) = .next t ∧ t.seqState = .failed :=
  ⟨rfl, next_of_after (f := (·.seqState)) (by decide)⟩

theorem witness_EndStateRegistersAreStable :
    Sound (turns (tiny .done 3 false) [.op (.hb 0x00400000000)]) ∧ jobEnd (tiny .done 3 false) = true ∧
    (∃ t, step (turns (tiny .done 3 false) [.op (.hb 0x00400000000)]) = .next t ∧ t.reads = [0x1004]) ∧
    ¬NextIs (turns (tiny .done 3 false) [.op (.hb 0x00400000000)]) .cmdStart ∧
    ¬NextIs (turns (tiny .done 3 false) [.op (.hb 0x00400000000)]) .cmdClear ∧
    ¬NextIs (turns (tiny .done 3 false) [.op (.hb 0x00400000000)]) .reset :=
  ⟨sound_turns sound_done _, rfl, next_of_after (f := (·.reads)) (by decide),
    fun h => absurd (nextIs_turns.mp h) (by decide), fun h => absurd (nextIs_turns.mp h) (by decide),
    fun h => absurd (nextIs_turns.mp h) (by decide)⟩

theorem witness_OnlyTheHostWritesPixelMemory :
    ¬NextIsPixelWrite (turns thirdChunk [.op (.rsp 1)]) ∧
      ∃ t, step (turns thirdChunk [.op (.rsp 1)]) = .next t ∧ t.pm = [] :=
  ⟨fun ⟨_, _, _, h⟩ => (by cases h), next_of_after (f := (·.pm)) (by decide)⟩

theorem witness_PixelWriteStoresOneSample :
    (turns thirdChunk [.pixel 0x7FFFFFFFF ⟨1, 2, 3, 4⟩]).agenda = .pixel 0x7FFFFFFFF ⟨1, 2, 3, 4⟩ :: [] ∧
      0x7FFFFFFFE ≠ (0x7FFFFFFFF : BitVec 35).toNat := by decide

/-- That job with sample 0 backed by these bytes. -/
def backed (s : State) : State := { s with pm := [(0, 0), (1, 0), (2, 0), (3, 255)] }

theorem sound_backed {s : State} (h : Sound s) : Sound (backed s) :=
  ⟨h.session, h.bitmap, by show Memory.wf [(0, 0), (1, 0), (2, 0), (3, 255)]; decide, h.issued, h.confirmed, h.reported⟩

/-- Each clause: no job, the first sample outside the 8 × 1 image, a write that changes nothing, a confirmed byte, and the
last sample of the byte in flight. -/
theorem witness_SnapshotSurvivesHarmlessPixelWrites :
    (Sound (turns State.reset [.pixel 0 ⟨0, 0, 0, 0⟩]) ∧ isBusy State.reset = false ∧
      ∃ t, step (turns State.reset [.pixel 0 ⟨0, 0, 0, 0⟩]) = .next t ∧ t.bm = []) ∧
    (Sound (tiny .sendHdr 0 false) ∧
      8 * (geomWb (tiny .sendHdr 0 false)).toNat * (geomHt (tiny .sendHdr 0 false)).toNat ≤ (8 : BitVec 35).toNat) ∧
    (Sound (backed (tiny .sendHdr 0 false)) ∧ memGet (backed (tiny .sendHdr 0 false)).pm 0 = some 0 ∧
      memGet (backed (tiny .sendHdr 0 false)).pm 3 = some 255) ∧
    (Sound (tiny .sendTrl 2 true) ∧ (7 : BitVec 35).toNat / 8 < (tiny .sendTrl 2 true).cursor.toNat) ∧
    (Sound (tiny .sendChunk 1 true) ∧ (tiny .sendChunk 1 true).inflight = true ∧
      (7 : BitVec 35).toNat / 8 < (tiny .sendChunk 1 true).cursor.toNat + chunkBytes (tiny .sendChunk 1 true)) :=
  ⟨⟨sound_turns sound_reset _, rfl, next_of_after (f := (·.bm)) (by decide)⟩, ⟨sound_hdr, by decide⟩,
    ⟨sound_backed sound_hdr, by decide, by decide⟩, ⟨sound_trlInflight, by decide⟩, sound_chunkInflight, rfl, by decide⟩

theorem witness_CycleEventsAreOrdered :
    (turns thirdChunk [.together true (some 1) (some 0x10000000002)]).agenda =
      .together true (some 1) (some 0x10000000002) :: [] ∧
    (turns thirdChunk [.together false (some 1) (some 0x10000000002)]).agenda =
      .together false (some 1) (some 0x10000000002) :: [] := by decide

theorem witness_ConfirmedJobRunsItsSchedule :
    Sound (turns (tiny .sendHdr 0 false) [.block, .op (.rsp 1), .block, .op (.rsp 1), .block, .op (.rsp 1)]) ∧
    (tiny .sendHdr 0 false).seqState = .sendHdr ∧ (tiny .sendHdr 0 false).inflight = false ∧
    [Turn.block, .op (.rsp 1), .block, .op (.rsp 1), .block, .op (.rsp 1)] =
      (List.replicate (chunkCount (tiny .sendHdr 0 false).payloadLen.toNat + 2) [Turn.block, .op (.rsp 1)]).flatten ++ [] :=
  ⟨sound_turns sound_hdr _, rfl, rfl, by decide⟩

theorem witness_BytesSentIsTheSumOfDeliveredWrites : Sound (tiny .done 3 false) ∧ Sound tinyFailed :=
  ⟨sound_done, sound_failed⟩

theorem witness_DoneJobDeliveredItsFrame : Sound (tiny .done 3 false) ∧ (tiny .done 3 false).seqState = .done :=
  ⟨sound_done, rfl⟩

end Sys2Proof.Tests
end

section
/-! Proofs for 00_scope.md: what PixRead returns and how its ink is packed (R9, R52, R100, R102), and which operation
the next step runs (R10, R72, R84). -/

namespace Sys2Proof.Machine

/-! ### Pixel samples and the packed byte -/

theorem sampleAddr_eq (p k : Nat) : sampleAddr p k = 4 * p + k := by
  simp [sampleAddr, Config.pmBase, Config.sampleBytes]

/-- PixRead of a sample whose four bytes are backed does not depend on the free values (R52). -/
theorem pixRead_of_memGet {pm : Memory} {p : Nat} {x : Sample}
    (hr : memGet pm (sampleAddr p 0) = some x.r) (hg : memGet pm (sampleAddr p 1) = some x.g)
    (hb : memGet pm (sampleAddr p 2) = some x.b) (ha : memGet pm (sampleAddr p 3) = some x.a) (draw : Nat) :
    pixRead pm draw p = x := by
  simp only [pixRead, pixelByte_of_memGet hr, pixelByte_of_memGet hg, pixelByte_of_memGet hb, pixelByte_of_memGet ha]

/-- The 10-bit sum of three bytes cannot wrap, so it is 0 only where the exact sum is (R100, R101). -/
theorem ink_eq_true_iff (x : Sample) : ink x = true ↔ x.r.toNat + x.g.toNat + x.b.toNat = 0 := by
  have exact_sum : (x.r.setWidth 10 + x.g.setWidth 10 + x.b.setWidth 10).toNat = x.r.toNat + x.g.toNat + x.b.toNat := by
    have hr := x.r.isLt
    have hg := x.g.isLt
    have hb := x.b.isLt
    simp only [BitVec.toNat_add, BitVec.toNat_setWidth]
    omega
  rw [ink, beq_iff_eq, ← BitVec.toNat_inj, exact_sum, BitVec.toNat_ofNat, Nat.zero_mod]

theorem ink_eq_true_iff_black (x : Sample) : ink x = true ↔ x.r = 0 ∧ x.g = 0 ∧ x.b = 0 := by
  simp [ink_eq_true_iff, ← BitVec.toNat_inj, and_assoc]

/-- PACK8 as a fold: bit j is set when it was set before, or when a listed position k with 7 - k = j carries ink. -/
theorem getLsbD_foldl_setBit (f : Nat → Bool) (ks : List Nat) (b : Byte) {j : Nat} (hj : j < 8) :
    (ks.foldl (fun b k => if f k then b ||| (1#8 <<< (7 - k)) else b) b).getLsbD j =
      (b.getLsbD j || ks.any (fun k => f k && 7 - k == j)) := by
  induction ks generalizing b with
  | nil => simp
  | cons k ks ih =>
    have bit : (1#8 <<< (7 - k)).getLsbD j = (7 - k == j) := by
      rw [← BitVec.twoPow_eq, BitVec.getLsbD_twoPow]
      grind
    rw [List.foldl_cons, ih, List.any_cons]
    cases hk : f k with
    | true => simp [bit, Bool.or_assoc]
    | false => simp

/-- Among the eight positions of a byte, k alone is written to bit 7 - k (R57). -/
theorem any_range_bit (f : Nat → Bool) {k : Nat} (hk : k < 8) :
    (List.range 8).any (fun i => f i && 7 - i == 7 - k) = f k := by
  rw [Bool.eq_iff_iff, List.any_eq_true]
  constructor
  · rintro ⟨i, hi, hf⟩
    obtain ⟨hfi, hbit⟩ := Bool.and_eq_true_iff.mp hf
    rw [List.mem_range] at hi
    rw [beq_iff_eq] at hbit
    have hik : i = k := by omega
    exact hik ▸ hfi
  · exact fun hf => ⟨k, List.mem_range.mpr hk, by simp [hf]⟩

/-- R102: bit 7 - k of the packed byte is the ink bit of its k-th pixel from the left. -/
theorem pack8_getLsbD (pm : Memory) (draw w r c : Nat) {k : Nat} (hk : k < 8) :
    (pack8 pm draw w r c).getLsbD (7 - k) = ink (pixRead pm draw (r * w + 8 * c + k)) := by
  rw [pack8, getLsbD_foldl_setBit _ _ _ (by omega), BitVec.getLsbD_zero, Bool.false_or, Config.pixelsPerByte,
    any_range_bit _ hk, inkAt, sampleIndex, Nat.add_assoc]

/-- Settles O56: the four stored bytes are PixRead's sample, and its ink is the packed bit. -/
theorem pixReadReturnsTheStoredBytes : Obligations.PixReadReturnsTheStoredBytes := by
  intro pm p r g b a hr hg hb ha draw
  have hread : pixRead pm draw p = ⟨r, g, b, a⟩ := by
    apply pixRead_of_memGet
    all_goals simpa only [sampleAddr_eq]
  refine ⟨hread, fun w row c k hk hp => ?_⟩
  rw [pack8_getLsbD pm draw w row c hk, hp, hread, ink_eq_true_iff_black]

/-! ### The operation that the next step runs -/

/-- A step whose turn is no row of the table is refused by the decoder's reason (log 15). -/
theorem step_of_rejected_op {s : State} {raw rest why} (ha : s.agenda = .op raw :: rest)
    (hd : decode raw = .error why) : step s = .refused (.undecodable why) := by
  simp [step, ha, turnStep, rawStep, hd]

/-- A table word that decodes has a form, and the decoder accepts it (log 6). -/
theorem decodeTableWord_eq_some {nbits w : Nat} {i : Instr} (h : decodeTableWord nbits w = some i) :
    ∃ raw, rawOfTableWord nbits w = some raw ∧ decode raw = .ok i := by
  unfold decodeTableWord at h
  split at h
  · cases h
  · rename_i raw hraw
    split at h
    · rename_i j hd
      cases h
      exact ⟨raw, hraw, hd⟩
    · cases h

theorem withFetchWord_agenda {s : State} {nbits w : Nat} {raw : RawOp} (h : rawOfTableWord nbits w = some raw) :
    s.withFetchWord nbits w = { s with agenda := .op raw :: s.agenda } := by
  simp [State.withFetchWord, scheduleWord, h]

/-- Settles O35: the two answers of the decoder. -/
theorem stepRunsTheDecodedInstruction : Obligations.StepRunsTheDecodedInstruction :=
  fun _ _ _ ha => ⟨fun _ hd => step_of_op ha hd, fun _ hd => step_of_rejected_op ha hd⟩

/-- Settles O36: the word's operation stands first on the agenda, and its step takes it off again. -/
theorem fetchWordRunsNext : Obligations.FetchWordRunsNext := by
  intro s nbits w i hi
  obtain ⟨raw, hraw, hd⟩ := decodeTableWord_eq_some hi
  rw [withFetchWord_agenda hraw, step_of_op rfl hd]

end Sys2Proof.Machine
end

section
/-! Proofs for 10_state.md and the invariant Sound: the schedule of a job, the current write as its next entry, and what
each step keeps (R22 to R43, R127, R147, R152). -/

namespace Sys2Proof.Machine

open Sys2Proof.Claims

/-! ### Writes of a schedule (41_framer.md R120 to R127) -/

/-- BYTES_SENT after the first k writes of a job are confirmed: 0, then acc(k − 1) (R27, R127). -/
def bytesConfirmed (len : Nat) : Nat → Nat
  | 0 => 0
  | k + 1 => acc len k

theorem hdr_length (wb ht : BitVec 16) : (hdr wb ht).length = 10 := rfl

theorem trl_length : trl.length = 3 := rfl

theorem chunkCount_eq (len : Nat) : chunkCount len = (len + 127) / 128 := rfl

theorem chunk_eq (bm : List Byte) (len k : Nat) :
    chunk bm len k = bmSlice bm (128 * k) (min 128 (len - 128 * k)) := rfl

theorem chunk_length {bm : List Byte} {len : Nat} (hbm : bm.length = len) (k : Nat) :
    (chunk bm len k).length = min 128 (len - 128 * k) := by
  rw [chunk_eq, bmSlice, List.length_take, List.length_drop, hbm]
  omega

theorem sched_getElem?_zero (wb ht : BitVec 16) (bm : List Byte) (len : Nat) :
    (sched wb ht bm len)[0]? = some (hdr wb ht) := rfl

theorem sched_getElem?_chunk (wb ht : BitVec 16) (bm : List Byte) {len k : Nat} (hk : k < chunkCount len) :
    (sched wb ht bm len)[k + 1]? = some (chunk bm len k) := by
  simp [sched, List.getElem?_append, hk]

theorem sched_getElem?_trailer (wb ht : BitVec 16) (bm : List Byte) (len : Nat) :
    (sched wb ht bm len)[chunkCount len + 1]? = some trl := by
  simp [sched]

theorem sched_length (wb ht : BitVec 16) (bm : List Byte) (len : Nat) :
    (sched wb ht bm len).length = chunkCount len + 2 := by
  simp [sched]

/-- Every position of a schedule is the header's, a chunk's or the trailer's. -/
theorem sched_position {wb ht : BitVec 16} {bm b : List Byte} {len k : Nat} (h : (sched wb ht bm len)[k]? = some b) :
    (k = 0 ∧ b = hdr wb ht) ∨ (∃ j, j < chunkCount len ∧ k = j + 1 ∧ b = chunk bm len j) ∨
      (k = chunkCount len + 1 ∧ b = trl) := by
  obtain ⟨hlt, -⟩ := List.getElem?_eq_some_iff.mp h
  rw [sched_length] at hlt
  rcases k with _ | j
  · rw [sched_getElem?_zero] at h
    exact .inl ⟨rfl, (Option.some.inj h).symm⟩
  · rcases Nat.lt_or_ge j (chunkCount len) with hj | hj
    · rw [sched_getElem?_chunk _ _ _ hj] at h
      exact .inr (.inl ⟨j, hj, rfl, (Option.some.inj h).symm⟩)
    · obtain rfl : j = chunkCount len := by omega
      rw [sched_getElem?_trailer] at h
      exact .inr (.inr ⟨rfl, (Option.some.inj h).symm⟩)

/-- Confirming one more write of the schedule adds its length (R127). -/
theorem bytesConfirmed_succ {wb ht : BitVec 16} {bm b : List Byte} {len k : Nat} (hbm : bm.length = len)
    (h : (sched wb ht bm len)[k]? = some b) : bytesConfirmed len (k + 1) = bytesConfirmed len k + b.length := by
  rcases sched_position h with ⟨rfl, rfl⟩ | ⟨j, hj, rfl, rfl⟩ | ⟨rfl, rfl⟩
  · simp [bytesConfirmed, acc, Config.headerLen, hdr_length]
  · rw [chunk_length hbm]
    simp only [bytesConfirmed, acc, Config.headerLen, Config.chunkSize, hj.le, Nat.succ_le_of_lt hj, if_true]
    rw [chunkCount_eq] at hj
    omega
  · have hn := chunkCount_eq len
    simp only [bytesConfirmed, acc, Config.headerLen, Config.chunkSize, Config.trailerLen, le_refl, if_true,
      Nat.not_succ_le_self, if_false, trl_length]
    omega

/-- The first k writes of a schedule have the bytes that acc counts (R127). -/
theorem sum_take_sched_length {wb ht : BitVec 16} {bm : List Byte} {len k : Nat} (hbm : bm.length = len)
    (hk : k ≤ chunkCount len + 2) :
    (((sched wb ht bm len).take k).map List.length).sum = bytesConfirmed len k := by
  induction k with
  | zero => rfl
  | succ k ih =>
    have hlt : k < (sched wb ht bm len).length := by rw [sched_length]; omega
    have hget := List.getElem?_eq_getElem hlt
    rw [List.take_add_one, hget, bytesConfirmed_succ hbm hget, ← ih (by omega), List.map_append, List.sum_append]
    simp only [Option.toList_some, List.map_cons, List.map_nil, List.sum_cons, List.sum_nil, Nat.add_zero]

/-- Replacing a byte of BM behind a chunk leaves that chunk as it is. -/
theorem chunk_set {bm : List Byte} {len k j : Nat} {v : Byte} (h : 128 * k + min 128 (len - 128 * k) ≤ j) :
    chunk (bm.set j v) len k = chunk bm len k := by
  rw [chunk_eq, chunk_eq, bmSlice, bmSlice]
  refine List.ext_getElem? fun i => ?_
  simp only [List.getElem?_take, List.getElem?_drop]
  split
  · rw [List.getElem?_set_ne (by omega)]
  · rfl

/-- The header and the first c chunks depend on BM only through those chunks. -/
theorem sched_take_congr {wb ht : BitVec 16} {bm bm' : List Byte} {len c : Nat} (hc : c ≤ chunkCount len)
    (h : ∀ k < c, chunk bm' len k = chunk bm len k) :
    (sched wb ht bm' len).take (c + 1) = (sched wb ht bm len).take (c + 1) := by
  have hmap : (List.range c).map (chunk bm' len) = (List.range c).map (chunk bm len) :=
    List.map_congr_left fun k hk => h k (List.mem_range.mp hk)
  simp only [sched, List.take_succ_cons, List.cons.injEq, true_and]
  rw [List.take_append_of_le_length (by simpa using hc), List.take_append_of_le_length (by simpa using hc),
    ← List.map_take, ← List.map_take, List.take_range, min_eq_left hc, hmap]

/-! ### The rows of R37 -/

theorem isBusy_iff (s : State) :
    isBusy s = true ↔ s.seqState = .sendHdr ∨ s.seqState = .sendChunk ∨ s.seqState = .sendTrl := by
  rw [isBusy]
  cases s.seqState <;> simp [busyState]

theorem jobEnd_iff (s : State) : jobEnd s = true ↔ s.seqState = .done ∨ s.seqState = .failed := by
  rw [jobEnd]
  cases s.seqState <;> simp [endState]

section rows
variable {s : State}

theorem sessionRow_idle (hq : s.seqState = .idle) : SessionRow s ↔ NoSession s ∧ NoError s ∧ s.inflight = false := by
  simp only [SessionRow, hq]

theorem sessionRow_sendHdr (hq : s.seqState = .sendHdr) : SessionRow s ↔ HeaderRow s ∧ NoError s := by
  simp only [SessionRow, hq]

theorem sessionRow_sendChunk (hq : s.seqState = .sendChunk) : SessionRow s ↔ ChunkRow s ∧ NoError s := by
  simp only [SessionRow, hq]

theorem sessionRow_sendTrl (hq : s.seqState = .sendTrl) : SessionRow s ↔ TrailerRow s ∧ NoError s := by
  simp only [SessionRow, hq]

theorem sessionRow_done (hq : s.seqState = .done) : SessionRow s ↔ DoneRow s ∧ NoError s ∧ s.inflight = false := by
  simp only [SessionRow, hq]

theorem sessionRow_failed (hq : s.seqState = .failed) : SessionRow s ↔ FailedRow s ∧ s.inflight = false := by
  simp only [SessionRow, hq]

theorem writesConfirmed_sendHdr (hq : s.seqState = .sendHdr) : writesConfirmed s = 0 := by
  simp only [writesConfirmed, hq]

theorem writesConfirmed_sendChunk (hq : s.seqState = .sendChunk) : writesConfirmed s = 1 + s.chunkIdx.toNat := by
  simp only [writesConfirmed, hq]

theorem writesConfirmed_sendTrl (hq : s.seqState = .sendTrl) : writesConfirmed s = 1 + s.chunkIdx.toNat := by
  simp only [writesConfirmed, hq]

theorem writesConfirmed_done (hq : s.seqState = .done) : writesConfirmed s = 2 + s.chunkIdx.toNat := by
  simp only [writesConfirmed, hq]

end rows

/-- The largest payload is 65535 × 65535 bytes (R26, R53). -/
theorem ValidGeometry.payloadLen_le {s : State} (h : ValidGeometry s) : s.payloadLen.toNat ≤ 4294836225 := by
  obtain ⟨-, -, hlen⟩ := h
  have hwb := (geomWb s).isLt
  have hht := (geomHt s).isLt
  calc s.payloadLen.toNat = (geomWb s).toNat * (geomHt s).toNat := hlen
    _ ≤ 65535 * 65535 := Nat.mul_le_mul (by omega) (by omega)

theorem ValidGeometry.payloadLen_pos {s : State} (h : ValidGeometry s) : 1 ≤ s.payloadLen.toNat := by
  obtain ⟨hwb, hht, hlen⟩ := h
  rw [hlen]
  exact Nat.mul_pos hwb hht

theorem HeaderRow.bytesSent_eq {s : State} (h : HeaderRow s) : s.bytesSent.toNat = bytesConfirmed s.payloadLen.toNat 0 := by
  obtain ⟨-, -, -, hsent⟩ := h
  exact hsent

theorem ChunkRow.bytesSent_eq {s : State} (h : ChunkRow s) :
    s.bytesSent.toNat = bytesConfirmed s.payloadLen.toNat (1 + s.chunkIdx.toNat) := by
  obtain ⟨-, hidx, hoff, -, -, hsent⟩ := h
  rw [hsent, Nat.add_comm 1, bytesConfirmed, acc, if_pos hidx.le, min_eq_left hoff.le]

theorem TrailerRow.bytesSent_eq {s : State} (h : TrailerRow s) :
    s.bytesSent.toNat = bytesConfirmed s.payloadLen.toNat (1 + s.chunkIdx.toNat) := by
  obtain ⟨-, hidx, -, hsent⟩ := h
  have hn := chunkCount_eq s.payloadLen.toNat
  rw [hsent, hidx, Nat.add_comm 1, bytesConfirmed, acc, if_pos le_rfl, Config.chunkSize, min_eq_right (by omega)]

theorem DoneRow.bytesSent_eq {s : State} (h : DoneRow s) :
    s.bytesSent.toNat = bytesConfirmed s.payloadLen.toNat (2 + s.chunkIdx.toNat) := by
  obtain ⟨-, hidx, -, hsent⟩ := h
  rw [hsent, hidx, Nat.add_comm 2, bytesConfirmed, acc, if_neg (by omega)]

/-- In every row of R37 BYTES_SENT is the count of the writes confirmed so far (R27, R127). -/
theorem SessionRow.bytesSent_eq {s : State} (h : SessionRow s) :
    s.bytesSent.toNat = bytesConfirmed s.payloadLen.toNat (writesConfirmed s) := by
  cases hq : s.seqState with
  | idle =>
    obtain ⟨⟨-, -, -, -, hsent⟩, -⟩ := (sessionRow_idle hq).mp h
    simp only [writesConfirmed, hq, bytesConfirmed, hsent]
  | sendHdr =>
    rw [writesConfirmed_sendHdr hq]
    exact ((sessionRow_sendHdr hq).mp h).1.bytesSent_eq
  | sendChunk =>
    rw [writesConfirmed_sendChunk hq]
    exact ((sessionRow_sendChunk hq).mp h).1.bytesSent_eq
  | sendTrl =>
    rw [writesConfirmed_sendTrl hq]
    exact ((sessionRow_sendTrl hq).mp h).1.bytesSent_eq
  | done =>
    rw [writesConfirmed_done hq]
    exact ((sessionRow_done hq).mp h).1.bytesSent_eq
  | failed =>
    obtain ⟨hrow, -⟩ := (sessionRow_failed hq).mp h
    rcases hrow with ⟨⟨-, -, -, -, hsent⟩, -, hg⟩ | ⟨-, ⟨hg, hrow⟩ | ⟨hg, hrow⟩ | ⟨hg, hrow⟩⟩
    · simp only [writesConfirmed, hq, hg, bytesConfirmed, hsent]
    · simpa only [writesConfirmed, hq, hg] using hrow.bytesSent_eq
    · simpa only [writesConfirmed, hq, hg] using hrow.bytesSent_eq
    · simpa only [writesConfirmed, hq, hg] using hrow.bytesSent_eq

/-- The outstanding request stands only in a busy state (R30, R37). -/
theorem SessionRow.isBusy_of_inflight {s : State} (h : SessionRow s) (hi : s.inflight = true) : isBusy s = true := by
  cases hq : s.seqState with
  | idle =>
    obtain ⟨-, -, hn⟩ := (sessionRow_idle hq).mp h
    simp [hn] at hi
  | sendHdr => exact (isBusy_iff s).mpr (.inl hq)
  | sendChunk => exact (isBusy_iff s).mpr (.inr (.inl hq))
  | sendTrl => exact (isBusy_iff s).mpr (.inr (.inr hq))
  | done =>
    obtain ⟨-, -, hn⟩ := (sessionRow_done hq).mp h
    simp [hn] at hi
  | failed =>
    obtain ⟨-, hn⟩ := (sessionRow_failed hq).mp h
    simp [hn] at hi

/-- Outside FAILED no row of R37 records an error. -/
theorem SessionRow.noError_of_not_failed {s : State} (h : SessionRow s) (hq : s.seqState ≠ .failed) : NoError s := by
  cases hs : s.seqState with
  | idle => exact ((sessionRow_idle hs).mp h).2.1
  | sendHdr => exact ((sessionRow_sendHdr hs).mp h).2
  | sendChunk => exact ((sessionRow_sendChunk hs).mp h).2
  | sendTrl => exact ((sessionRow_sendTrl hs).mp h).2
  | done => exact ((sessionRow_done hs).mp h).2.1
  | failed => exact absurd hs hq

/-- No failure is recorded while a job runs (R31, R37). -/
theorem SessionRow.noError_of_isBusy {s : State} (h : SessionRow s) (hb : isBusy s = true) : NoError s :=
  h.noError_of_not_failed fun hq => by simp [isBusy, busyState, hq] at hb

theorem holdsJob_of_isBusy {s : State} (h : isBusy s = true) : holdsJob s = true := by
  simp [holdsJob, h]

theorem channelFailed_of_isBusy {s : State} (h : isBusy s = true) : channelFailed s = false := by
  rcases (isBusy_iff s).mp h with hq | hq | hq <;> simp [channelFailed, hq]

theorem writesIssued_of_inflight {s : State} (h : s.inflight = true) : writesIssued s = writesConfirmed s + 1 := by
  simp [writesIssued, h]

theorem writesIssued_of_idle_port {s : State} (hb : isBusy s = true) (h : s.inflight = false) :
    writesIssued s = writesConfirmed s := by
  simp [writesIssued, h, channelFailed_of_isBusy hb]

theorem writesConfirmed_le_writesIssued (s : State) : writesConfirmed s ≤ writesIssued s :=
  Nat.le_add_right _ _

/-- Outside a job no write counts as confirmed (R37, R147). -/
theorem SessionRow.writesConfirmed_of_no_job {s : State} (h : SessionRow s) (hj : holdsJob s = false) :
    writesConfirmed s = 0 := by
  obtain ⟨⟨hb, hd⟩, hf⟩ : (isBusy s = false ∧ s.seqState ≠ .done) ∧ channelFailed s = false := by
    simpa [holdsJob] using hj
  cases hq : s.seqState with
  | idle => simp only [writesConfirmed, hq]
  | sendHdr => simp [isBusy, busyState, hq] at hb
  | sendChunk => simp [isBusy, busyState, hq] at hb
  | sendTrl => simp [isBusy, busyState, hq] at hb
  | done => exact absurd hq hd
  | failed =>
    have hcode : s.errCode ≠ .channelWriteFailed := by simpa [channelFailed, hq] using hf
    rcases ((sessionRow_failed hq).mp h).1 with ⟨-, -, hg⟩ | ⟨hc, -⟩
    · simp only [writesConfirmed, hq, hg]
    · exact absurd hc hcode

/-- A job has n + 2 writes, so no more are confirmed (R147). -/
theorem SessionRow.writesConfirmed_le {s : State} (h : SessionRow s) :
    writesConfirmed s ≤ chunkCount s.payloadLen.toNat + 2 := by
  cases hq : s.seqState with
  | idle => simp only [writesConfirmed, hq]; omega
  | sendHdr => rw [writesConfirmed_sendHdr hq]; omega
  | sendChunk =>
    obtain ⟨⟨-, hidx, -⟩, -⟩ := (sessionRow_sendChunk hq).mp h
    rw [writesConfirmed_sendChunk hq]; omega
  | sendTrl =>
    obtain ⟨⟨-, hidx, -⟩, -⟩ := (sessionRow_sendTrl hq).mp h
    rw [writesConfirmed_sendTrl hq]; omega
  | done =>
    obtain ⟨⟨-, hidx, -⟩, -⟩ := (sessionRow_done hq).mp h
    rw [writesConfirmed_done hq]; omega
  | failed =>
    obtain ⟨hrow, -⟩ := (sessionRow_failed hq).mp h
    rcases hrow with ⟨-, -, hg⟩ | ⟨-, ⟨hg, -⟩ | ⟨hg, -, hidx, -⟩ | ⟨hg, -, hidx, -⟩⟩
    all_goals simp only [writesConfirmed, hq, hg]
    all_goals omega

/-! ### The current write is the next entry of the schedule (42_sequencer_arbiter.md R140, R147) -/

/-- The bytes of the job's writes, in the order of the schedule (R126). -/
def jobSched (s : State) : List (List Byte) := sched (geomWb s) (geomHt s) s.bm s.payloadLen.toNat

theorem jobRequests_getElem? (s : State) (k : Nat) : (jobRequests s)[k]? = (jobSched s)[k]?.map requestOf :=
  List.getElem?_map ..

theorem current_write {s : State} (hrow : SessionRow s) (hb : isBusy s = true) (hbm : s.bm.length = s.payloadLen.toNat) :
    ∃ bytes, (jobSched s)[writesConfirmed s]? = some bytes ∧ curBytes s = some bytes ∧
      curLen s = some (BitVec.ofNat 8 bytes.length) ∧ bytes.length ≤ 128 := by
  rcases (isBusy_iff s).mp hb with hq | hq | hq
  · refine ⟨hdr (geomWb s) (geomHt s), ?_, by simp only [curBytes, hq], ?_, by rw [hdr_length]; omega⟩
    · rw [writesConfirmed_sendHdr hq]; rfl
    · simp only [curLen, hq, hdr_length, Config.headerLen]
  · obtain ⟨⟨-, hidx, hoff, -, hcur, -⟩, -⟩ := (sessionRow_sendChunk hq).mp hrow
    rw [Config.chunkSize] at hoff hcur
    have hlen := chunk_length hbm s.chunkIdx.toNat
    have hm : curLen s = some (BitVec.ofNat 8 (chunk s.bm s.payloadLen.toNat s.chunkIdx.toNat).length) := by
      simp only [curLen, hq, hcur, hoff, if_true, hlen, Config.chunkSize]
    refine ⟨chunk s.bm s.payloadLen.toNat s.chunkIdx.toNat, ?_, ?_, hm, by omega⟩
    · rw [writesConfirmed_sendChunk hq, Nat.add_comm, jobSched, sched_getElem?_chunk _ _ _ hidx]
    · have hnat : (BitVec.ofNat 8 (min 128 (s.payloadLen.toNat - 128 * s.chunkIdx.toNat))).toNat =
          min 128 (s.payloadLen.toNat - 128 * s.chunkIdx.toNat) := by
        rw [BitVec.toNat_ofNat]; omega
      simp only [curBytes, hq, hm, hlen, hnat, hcur]
      rw [if_pos (by omega), chunk_eq]
  · obtain ⟨⟨-, hidx, -⟩, -⟩ := (sessionRow_sendTrl hq).mp hrow
    refine ⟨trl, ?_, by simp only [curBytes, hq], ?_, by rw [trl_length]; omega⟩
    · rw [writesConfirmed_sendTrl hq, Nat.add_comm, hidx, jobSched, sched_getElem?_trailer]
    · simp only [curLen, hq, trl_length, Config.trailerLen]

/-- One more write joins the stream: the next one of the schedule. -/
theorem append_take_succ {α : Type} {stream before full : List α} {k : Nat} {x : α}
    (hs : stream = before ++ full.take k) (hx : full[k]? = some x) : stream ++ [x] = before ++ full.take (k + 1) := by
  rw [hs, List.append_assoc, List.take_add_one, hx]
  rfl

/-! ### What keeps a state sound -/

/-- A state in which no write of a job was issued yet is sound whatever the streams hold. -/
theorem Sound.of_no_writes {t : State} (session : SessionRow t)
    (bitmap : holdsJob t = true → t.bm.length = t.payloadLen.toNat) (pixels : Memory.wf t.pm)
    (hw : writesIssued t = 0) : Sound t := by
  have hc : writesConfirmed t = 0 := Nat.le_zero.mp (hw ▸ writesConfirmed_le_writesIssued t)
  refine ⟨session, bitmap, pixels, ⟨t.cs, ?_⟩, ⟨t.delivered, ?_⟩, ⟨t.progress, ?_⟩⟩
  · simp [hw]
  · simp [hc]
  · simp [hc, accPrefix]

/-- A sound state in IDLE or after a failed validation: no session, nothing in flight. -/
theorem Sound.of_noSession {t : State} (hs : NoSession t) (hg : t.errStage = .none) (hi : t.inflight = false)
    (hq : (t.seqState = .idle ∧ t.errCode = .none) ∨
      (t.seqState = .failed ∧ (t.errCode = .invalidDimensions ∨ t.errCode = .dimensionOverflow)))
    (pixels : Memory.wf t.pm) : Sound t := by
  have hc : channelFailed t = false := by
    rcases hq with ⟨hq, -⟩ | ⟨hq, he | he⟩ <;> simp [channelFailed, *]
  have hw : writesConfirmed t = 0 := by
    rcases hq with ⟨hq, -⟩ | ⟨hq, -⟩ <;> simp only [writesConfirmed, hq, hg]
  have hj : holdsJob t = false := by
    rcases hq with ⟨hq, -⟩ | ⟨hq, -⟩ <;> simp [holdsJob, hc, isBusy, busyState, hq]
  refine .of_no_writes ?_ (fun h => by simp [hj] at h) pixels (by simp [writesIssued, hw, hi, hc])
  rcases hq with ⟨hq, he⟩ | ⟨hq, he⟩
  · exact (sessionRow_idle hq).mpr ⟨hs, ⟨he, hg⟩, hi⟩
  · exact (sessionRow_failed hq).mpr ⟨.inl ⟨hs, he, hg⟩, hi⟩

theorem clearSession_noSession (s : State) : NoSession (clearSession s) :=
  ⟨rfl, rfl, rfl, rfl, rfl⟩

theorem leaveEndState_sound {s : State} (h : Sound s) : Sound (leaveEndState s) :=
  .of_noSession (clearSession_noSession s) rfl rfl (.inl ⟨rfl, rfl⟩) h.pixels

theorem resetBlock_sound {s : State} (h : Sound s) : Sound (resetBlock s) :=
  .of_noSession (clearSession_noSession s) rfl rfl (.inl ⟨rfl, rfl⟩) h.pixels

/-! ### START (R174, R201, R202) -/

theorem widthBytes_toNat (w : BitVec 32) : (widthBytes w).toNat = w.toNat / 8 := by
  rw [widthBytes, BitVec.toNat_ushiftRight, Nat.shiftRight_eq_div_pow]

theorem dimensionsOverflow_eq_false_iff (w h : BitVec 32) :
    dimensionsOverflow w h = false ↔ w.toNat / 8 ≤ 65535 ∧ h.toNat ≤ 65535 := by
  rw [dimensionsOverflow, Bool.or_eq_false_iff, decide_eq_false_iff_not, decide_eq_false_iff_not, not_lt, not_lt,
    widthBytes_toNat]
  exact Iff.rfl

theorem dimensionsInvalid_eq_false_iff (w h : BitVec 32) :
    dimensionsInvalid w h = false ↔ w.toNat ≠ 0 ∧ h.toNat ≠ 0 ∧ w.toNat % 8 = 0 := by
  have low : w.extractLsb' 0 3 = 0 ↔ w.toNat % 8 = 0 := by
    rw [← BitVec.toNat_inj, BitVec.extractLsb'_toNat, Nat.shiftRight_zero]
    rfl
  simp only [dimensionsInvalid, Bool.or_eq_false_iff, decide_eq_false_iff_not, ← BitVec.toNat_inj, ne_eq, not_not, low,
    and_assoc]
  exact Iff.rfl

theorem geomWb_of_geometryOf {s : State} {w h : BitVec 32} (hg : s.geometry = geometryOf w h) :
    geomWb s = w.extractLsb' 0 16 := by
  rw [geomWb, hg, geometryOf]
  exact BitVec.extractLsb'_append_eq_right ..

theorem geomHt_of_geometryOf {s : State} {w h : BitVec 32} (hg : s.geometry = geometryOf w h) :
    geomHt s = h.extractLsb' 0 16 := by
  rw [geomHt, hg, geometryOf]
  exact BitVec.extractLsb'_append_eq_left ..

theorem encodeImage_length (pm : Memory) (draw w h : Nat) : (encodeImage pm draw w h).length = w / 8 * h := by
  simp [encodeImage, encodeRow, List.length_flatMap, Config.pixelsPerByte, Nat.mul_comm]

theorem low_half_toNat {v : BitVec 32} (h : v.toNat ≤ 65535) : (v.extractLsb' 0 16).toNat = v.toNat := by
  rw [BitVec.extractLsb'_toNat, Nat.shiftRight_zero, Nat.mod_eq_of_lt (by omega)]

/-- A START that passes validation enters SEND_HDR with a valid geometry and a bitmap of PAYLOAD_LEN bytes (R174). -/
theorem beginJob_sound {s : State} {w h : BitVec 32} (pixels : Memory.wf s.pm)
    (hov : dimensionsOverflow w h = false) (hinv : dimensionsInvalid w h = false) :
    Sound (beginJob w h (clearSession s)) := by
  obtain ⟨hw, hh⟩ := (dimensionsOverflow_eq_false_iff w h).mp hov
  obtain ⟨hw0, hh0, hw8⟩ := (dimensionsInvalid_eq_false_iff w h).mp hinv
  have hprod : w.toNat / 8 * h.toNat ≤ 65535 * 65535 := Nat.mul_le_mul hw hh
  have hlen : (beginJob w h (clearSession s)).payloadLen.toNat = w.toNat / 8 * h.toNat := by
    rw [beginJob_payloadLen, widthBytes_toNat, BitVec.toNat_ofNat, Nat.mod_eq_of_lt (by omega)]
  have hwb : (geomWb (beginJob w h (clearSession s))).toNat = w.toNat / 8 := by
    rw [geomWb_of_geometryOf rfl, low_half_toNat (by rwa [widthBytes_toNat]), widthBytes_toNat]
  have hht : (geomHt (beginJob w h (clearSession s))).toNat = h.toNat := by
    rw [geomHt_of_geometryOf rfl, low_half_toNat hh]
  have hvalid : ValidGeometry (beginJob w h (clearSession s)) := by
    rw [ValidGeometry, hwb, hht, hlen]
    omega
  refine .of_no_writes ((sessionRow_sendHdr rfl).mpr ⟨⟨hvalid, rfl, rfl, rfl⟩, rfl, rfl⟩) (fun _ => ?_) pixels rfl
  rw [hlen, beginJob_bm, encodeImage_length]

theorem startJob_sound {s : State} (h : Sound s) : Sound (startJob s) := by
  rcases startJob_cases s with ⟨-, he⟩ | ⟨-, -, he⟩ | ⟨hov, hinv, he⟩
  · rw [he]
    exact .of_noSession (clearSession_noSession s) rfl rfl (.inr ⟨rfl, .inr rfl⟩) h.pixels
  · rw [he]
    exact .of_noSession (clearSession_noSession s) rfl rfl (.inr ⟨rfl, .inl rfl⟩) h.pixels
  · rw [he]
    exact beginJob_sound h.pixels hov hinv

/-! ### The issue step and a failed write (R141, R143) -/

/-- In a busy sound state the current write is the next request of the schedule. -/
theorem Sound.current_request {s : State} (h : Sound s) (hb : isBusy s = true) {m : BitVec 8} (hm : curLen s = some m) :
    ∃ bytes, (jobSched s)[writesConfirmed s]? = some bytes ∧ curBytes s = some bytes ∧
      (jobRequests s)[writesConfirmed s]? = some ⟨m, bytes⟩ ∧ m.toNat = bytes.length := by
  obtain ⟨bytes, hsched, hbytes, hlen, h128⟩ := current_write h.session hb (h.bitmap (holdsJob_of_isBusy hb))
  obtain rfl : m = BitVec.ofNat 8 bytes.length := Option.some.inj (hm.symm.trans hlen)
  refine ⟨bytes, hsched, hbytes, ?_, ?_⟩
  · rw [jobRequests_getElem?, hsched]; rfl
  · rw [BitVec.toNat_ofNat]; omega

theorem issueEnabled_iff (s : State) : issueEnabled s = true ↔ isBusy s = true ∧ s.inflight = false := by
  simp [issueEnabled]

/-- INFLIGHT does not enter the rows of the busy states. -/
theorem issueResult_sessionRow {s : State} (hrow : SessionRow s) (hb : isBusy s = true) (m : BitVec 8)
    (bytes : List Byte) : SessionRow (issueResult m bytes s) := by
  rcases (isBusy_iff s).mp hb with hq | hq | hq
  · exact (sessionRow_sendHdr (s := issueResult m bytes s) hq).mpr ((sessionRow_sendHdr hq).mp hrow)
  · exact (sessionRow_sendChunk (s := issueResult m bytes s) hq).mpr ((sessionRow_sendChunk hq).mp hrow)
  · exact (sessionRow_sendTrl (s := issueResult m bytes s) hq).mpr ((sessionRow_sendTrl hq).mp hrow)

theorem issueResult_sound {s : State} {m : BitVec 8} {bytes : List Byte} (h : Sound s) (he : issueEnabled s = true)
    (hm : curLen s = some m) (hbytes : curBytes s = some bytes) : Sound (issueResult m bytes s) := by
  obtain ⟨hb, hi⟩ := (issueEnabled_iff s).mp he
  obtain ⟨bytes', -, hbytes', hreq, -⟩ := h.current_request hb hm
  obtain rfl : bytes = bytes' := Option.some.inj (hbytes.symm.trans hbytes')
  obtain ⟨before, hcs⟩ := h.issued
  rw [writesIssued_of_idle_port hb hi] at hcs
  refine ⟨issueResult_sessionRow h.session hb m bytes, h.bitmap, h.pixels, ⟨before, ?_⟩, h.confirmed, h.reported⟩
  rw [writesIssued_of_inflight rfl]
  exact append_take_succ hcs hreq

/-- The state after the outstanding write failed in stage g. -/
def failResult (g : Stage) (s : State) : State := fail .channelWriteFailed g { s with inflight := false }

/-- A channel failure keeps the registers of the state that failed, and the count of its confirmed writes (R37, R203). -/
theorem failResult_session {s : State} {g : Stage} (hrow : SessionRow s) (hg : stageOf s = some g) :
    FailedRow (failResult g s) ∧ writesConfirmed (failResult g s) = writesConfirmed s ∧ isBusy s = true := by
  unfold stageOf at hg
  split at hg
  all_goals cases hg
  all_goals rename_i hq
  · exact ⟨.inr ⟨rfl, .inl ⟨rfl, ((sessionRow_sendHdr hq).mp hrow).1⟩⟩, (writesConfirmed_sendHdr hq).symm,
      (isBusy_iff s).mpr (.inl hq)⟩
  · exact ⟨.inr ⟨rfl, .inr (.inl ⟨rfl, ((sessionRow_sendChunk hq).mp hrow).1⟩)⟩,
      (writesConfirmed_sendChunk hq).symm, (isBusy_iff s).mpr (.inr (.inl hq))⟩
  · exact ⟨.inr ⟨rfl, .inr (.inr ⟨rfl, ((sessionRow_sendTrl hq).mp hrow).1⟩)⟩, (writesConfirmed_sendTrl hq).symm,
      (isBusy_iff s).mpr (.inr (.inr hq))⟩

theorem failResult_sound {s : State} {g : Stage} (h : Sound s) (hi : s.inflight = true) (hg : stageOf s = some g) :
    Sound (failResult g s) := by
  obtain ⟨hrow, hconf, hb⟩ := failResult_session h.session hg
  have hiss : writesIssued (failResult g s) = writesIssued s := by
    rw [writesIssued_of_inflight hi, ← hconf]; rfl
  refine ⟨(sessionRow_failed rfl).mpr ⟨hrow, rfl⟩, fun _ => h.bitmap (holdsJob_of_isBusy hb), h.pixels, ?_, ?_, ?_⟩
  · rw [hiss]; exact h.issued
  · rw [hconf]; exact h.confirmed
  · rw [hconf]; exact h.reported

/-! ### A confirmed write (R142, R144) -/

/-- The state after the outstanding write of m bytes was confirmed. -/
def confirmResult (m : BitVec 8) (s : State) : State := advance m (emitProgress (takeConfirmation m s))

/-- advance moves the sequencer alone: STATE, CURSOR and CHUNK_IDX (R144). -/
theorem advance_frame (m : BitVec 8) (s : State) :
    advance m s = { s with seqState := (advance m s).seqState, cursor := (advance m s).cursor
                           chunkIdx := (advance m s).chunkIdx } := by
  unfold advance
  split <;> rfl

theorem confirmResult_frame (m : BitVec 8) (s : State) :
    confirmResult m s = { s with
      seqState := (confirmResult m s).seqState, cursor := (confirmResult m s).cursor
      chunkIdx := (confirmResult m s).chunkIdx, inflight := false, bytesSent := s.bytesSent + m.setWidth 32
      delivered := s.delivered ++ (portRequest s).toList
      progress := s.progress ++ [s.bytesSent + m.setWidth 32] } :=
  advance_frame m _

theorem confirmResult_sendHdr {s : State} (hq : s.seqState = .sendHdr) (m : BitVec 8) :
    (confirmResult m s).seqState = .sendChunk ∧ (confirmResult m s).cursor = s.cursor ∧
      (confirmResult m s).chunkIdx = s.chunkIdx := by
  simp [confirmResult, advance, hq]

theorem confirmResult_sendChunk {s : State} (hq : s.seqState = .sendChunk) (m : BitVec 8) :
    (confirmResult m s).seqState = (if s.cursor + m.setWidth 32 = s.payloadLen then .sendTrl else .sendChunk) ∧
      (confirmResult m s).cursor = s.cursor + m.setWidth 32 ∧ (confirmResult m s).chunkIdx = s.chunkIdx + 1 := by
  simp only [confirmResult, advance, emitProgress_seqState, takeConfirmation_seqState, hq]
  exact ⟨rfl, rfl, rfl⟩

theorem confirmResult_sendTrl {s : State} (hq : s.seqState = .sendTrl) (m : BitVec 8) :
    (confirmResult m s).seqState = .done ∧ (confirmResult m s).cursor = s.cursor ∧
      (confirmResult m s).chunkIdx = s.chunkIdx := by
  simp [confirmResult, advance, hq]

@[simp] theorem confirmResult_geometry (m : BitVec 8) (s : State) : (confirmResult m s).geometry = s.geometry := by
  rw [confirmResult_frame]

@[simp] theorem confirmResult_payloadLen (m : BitVec 8) (s : State) : (confirmResult m s).payloadLen = s.payloadLen := by
  rw [confirmResult_frame]

@[simp] theorem confirmResult_bytesSent (m : BitVec 8) (s : State) :
    (confirmResult m s).bytesSent = s.bytesSent + m.setWidth 32 := by
  rw [confirmResult_frame]

@[simp] theorem confirmResult_inflight (m : BitVec 8) (s : State) : (confirmResult m s).inflight = false := by
  rw [confirmResult_frame]

@[simp] theorem confirmResult_errCode (m : BitVec 8) (s : State) : (confirmResult m s).errCode = s.errCode := by
  rw [confirmResult_frame]

@[simp] theorem confirmResult_errStage (m : BitVec 8) (s : State) : (confirmResult m s).errStage = s.errStage := by
  rw [confirmResult_frame]

@[simp] theorem confirmResult_bm (m : BitVec 8) (s : State) : (confirmResult m s).bm = s.bm := by
  rw [confirmResult_frame]

@[simp] theorem confirmResult_pm (m : BitVec 8) (s : State) : (confirmResult m s).pm = s.pm := by
  rw [confirmResult_frame]

@[simp] theorem confirmResult_cs (m : BitVec 8) (s : State) : (confirmResult m s).cs = s.cs := by
  rw [confirmResult_frame]

@[simp] theorem confirmResult_delivered (m : BitVec 8) (s : State) :
    (confirmResult m s).delivered = s.delivered ++ (portRequest s).toList := by
  rw [confirmResult_frame]

@[simp] theorem confirmResult_progress (m : BitVec 8) (s : State) :
    (confirmResult m s).progress = s.progress ++ [s.bytesSent + m.setWidth 32] := by
  rw [confirmResult_frame]

@[simp] theorem confirmResult_jobRequests (m : BitVec 8) (s : State) :
    jobRequests (confirmResult m s) = jobRequests s := by
  simp [jobRequests, geomWb, geomHt]

@[simp] theorem confirmResult_accPrefix (m : BitVec 8) (s : State) (k : Nat) :
    accPrefix (confirmResult m s) k = accPrefix s k := by
  simp [accPrefix]

theorem confirmResult_validGeometry {s : State} (m : BitVec 8) (h : ValidGeometry s) :
    ValidGeometry (confirmResult m s) := by
  simpa [ValidGeometry, geomWb, geomHt] using h

theorem confirmResult_noError {s : State} (m : BitVec 8) (h : NoError s) : NoError (confirmResult m s) := by
  simpa [NoError] using h

/-- Adding a write's length to a counter does not wrap below 2^32. -/
theorem toNat_add_len {c : BitVec 32} {m : BitVec 8} (h : c.toNat + m.toNat < 4294967296) :
    (c + m.setWidth 32).toNat = c.toNat + m.toNat := by
  have hm := m.isLt
  rw [BitVec.toNat_add, BitVec.toNat_setWidth]
  omega

/-- After the header's confirmation the first chunk is next (R144). -/
theorem confirmResult_session_sendHdr {s : State} {m : BitVec 8} (hrow : SessionRow s) (hm : curLen s = some m)
    (hq : s.seqState = .sendHdr) :
    SessionRow (confirmResult m s) ∧ writesConfirmed (confirmResult m s) = writesConfirmed s + 1 := by
  obtain ⟨⟨hvalid, hidx, hcur, hsent⟩, herr⟩ := (sessionRow_sendHdr hq).mp hrow
  obtain ⟨hq', hcur', hidx'⟩ := confirmResult_sendHdr hq m
  have hpos := hvalid.payloadLen_pos
  have hn := chunkCount_eq s.payloadLen.toNat
  have hlen : m.toNat = 10 := by
    simp only [curLen, hq, Option.some.injEq] at hm
    rw [← hm]; rfl
  have hsentm := toNat_add_len (c := s.bytesSent) (m := m) (by omega)
  refine ⟨(sessionRow_sendChunk hq').mpr
    ⟨⟨confirmResult_validGeometry _ hvalid, ?_, ?_, rfl, ?_, ?_⟩, confirmResult_noError _ herr⟩, ?_⟩
  · rw [confirmResult_payloadLen, hidx', hidx]; omega
  · rw [confirmResult_payloadLen, hidx', hidx]; omega
  · rw [hcur', hidx', hcur, hidx]; rfl
  · rw [confirmResult_bytesSent, hsentm, hidx', hidx, hsent, hlen]; rfl
  · rw [writesConfirmed_sendChunk hq', writesConfirmed_sendHdr hq, hidx', hidx]

/-- After a chunk's confirmation the next chunk is due, or the trailer where CURSOR has reached PAYLOAD_LEN (R144). -/
theorem confirmResult_session_sendChunk {s : State} {m : BitVec 8} (hrow : SessionRow s) (hm : curLen s = some m)
    (hq : s.seqState = .sendChunk) :
    SessionRow (confirmResult m s) ∧ writesConfirmed (confirmResult m s) = writesConfirmed s + 1 := by
  obtain ⟨⟨hvalid, hidx, hoff, -, hcur, hsent⟩, herr⟩ := (sessionRow_sendChunk hq).mp hrow
  obtain ⟨hq', hcur', hidx'⟩ := confirmResult_sendChunk hq m
  rw [Config.chunkSize] at hoff hcur hsent
  rw [Config.headerLen] at hsent
  have hmax := hvalid.payloadLen_le
  have hn := chunkCount_eq s.payloadLen.toNat
  have hlen : m.toNat = min 128 (s.payloadLen.toNat - 128 * s.chunkIdx.toNat) := by
    simp only [curLen, hq, hcur, hoff, if_true, Option.some.injEq, Config.chunkSize] at hm
    rw [← hm, BitVec.toNat_ofNat]; omega
  have hcurm := toNat_add_len (c := s.cursor) (m := m) (by omega)
  have hsentm := toNat_add_len (c := s.bytesSent) (m := m) (by omega)
  have hidxm : (s.chunkIdx + 1).toNat = s.chunkIdx.toNat + 1 := by
    rw [BitVec.toNat_add, show (1 : BitVec 32).toNat = 1 from rfl]; omega
  have hlast : s.cursor + m.setWidth 32 = s.payloadLen ↔ s.cursor.toNat + m.toNat = s.payloadLen.toNat := by
    rw [← BitVec.toNat_inj, hcurm]
  by_cases hl : s.cursor + m.setWidth 32 = s.payloadLen
  · rw [if_pos hl] at hq'
    have hend := hlast.mp hl
    refine ⟨(sessionRow_sendTrl hq').mpr
      ⟨⟨confirmResult_validGeometry _ hvalid, ?_, ?_, ?_⟩, confirmResult_noError _ herr⟩, ?_⟩
    · rw [confirmResult_payloadLen, hidx', hidxm]; omega
    · rw [confirmResult_payloadLen, hcur', hcurm, hend]
    · rw [confirmResult_payloadLen, confirmResult_bytesSent, hsentm, Config.headerLen]; omega
    · rw [writesConfirmed_sendTrl hq', writesConfirmed_sendChunk hq, hidx', hidxm]; omega
  · rw [if_neg hl] at hq'
    have hmore := mt hlast.mpr hl
    refine ⟨(sessionRow_sendChunk hq').mpr
      ⟨⟨confirmResult_validGeometry _ hvalid, ?_, ?_, rfl, ?_, ?_⟩, confirmResult_noError _ herr⟩, ?_⟩
    · rw [confirmResult_payloadLen, hidx', hidxm]; omega
    · rw [confirmResult_payloadLen, hidx', hidxm, Config.chunkSize]; omega
    · rw [hcur', hidx', hcurm, hidxm, Config.chunkSize]; omega
    · rw [confirmResult_bytesSent, hsentm, hidx', hidxm, Config.headerLen, Config.chunkSize]; omega
    · rw [writesConfirmed_sendChunk hq', writesConfirmed_sendChunk hq, hidx', hidxm]; omega

/-- The trailer's confirmation ends the job (R144). -/
theorem confirmResult_session_sendTrl {s : State} {m : BitVec 8} (hrow : SessionRow s) (hm : curLen s = some m)
    (hq : s.seqState = .sendTrl) :
    SessionRow (confirmResult m s) ∧ writesConfirmed (confirmResult m s) = writesConfirmed s + 1 := by
  obtain ⟨⟨hvalid, hidx, hcur, hsent⟩, herr⟩ := (sessionRow_sendTrl hq).mp hrow
  obtain ⟨hq', hcur', hidx'⟩ := confirmResult_sendTrl hq m
  rw [Config.headerLen] at hsent
  have hmax := hvalid.payloadLen_le
  have hlen : m.toNat = 3 := by
    simp only [curLen, hq, Option.some.injEq] at hm
    rw [← hm]; rfl
  have hsentm := toNat_add_len (c := s.bytesSent) (m := m) (by omega)
  refine ⟨(sessionRow_done hq').mpr ⟨⟨confirmResult_validGeometry _ hvalid, ?_, ?_, ?_⟩,
    confirmResult_noError _ herr, confirmResult_inflight _ _⟩, ?_⟩
  · rw [confirmResult_payloadLen, hidx', hidx]
  · rw [confirmResult_payloadLen, hcur', hcur]
  · rw [confirmResult_payloadLen, confirmResult_bytesSent, hsentm, hsent, hlen]; rfl
  · rw [writesConfirmed_done hq', writesConfirmed_sendTrl hq, hidx']; omega

/-- A confirmation leads from a row of R37 to the next, with one more write confirmed (R144). -/
theorem confirmResult_session {s : State} {m : BitVec 8} (hrow : SessionRow s) (hm : curLen s = some m) :
    SessionRow (confirmResult m s) ∧ writesConfirmed (confirmResult m s) = writesConfirmed s + 1 := by
  cases hq : s.seqState with
  | idle => simp [curLen, hq] at hm
  | sendHdr => exact confirmResult_session_sendHdr hrow hm hq
  | sendChunk => exact confirmResult_session_sendChunk hrow hm hq
  | sendTrl => exact confirmResult_session_sendTrl hrow hm hq
  | done => simp [curLen, hq] at hm
  | failed => simp [curLen, hq] at hm

/-- The outstanding request on the port is the next one of the schedule. -/
theorem Sound.portRequest_eq {s : State} (h : Sound s) (hi : s.inflight = true) {req : WriteReq}
    (hreq : (jobRequests s)[writesConfirmed s]? = some req) : s.cs.getLast? = some req := by
  obtain ⟨before, hcs⟩ := h.issued
  rw [writesIssued_of_inflight hi] at hcs
  rw [hcs, List.take_add_one, hreq, ← List.append_assoc]
  exact List.getLast?_concat ..

theorem confirmResult_sound {s : State} {m : BitVec 8} (h : Sound s) (hi : s.inflight = true) (hm : curLen s = some m) :
    Sound (confirmResult m s) := by
  have hb := h.session.isBusy_of_inflight hi
  have hbm := h.bitmap (holdsJob_of_isBusy hb)
  obtain ⟨hrow, hconf⟩ := confirmResult_session h.session hm
  obtain ⟨bytes, -, -, hreq, -⟩ := h.current_request hb hm
  obtain ⟨before, hdel⟩ := h.confirmed
  obtain ⟨beforeP, hprog⟩ := h.reported
  have hissued : writesIssued (confirmResult m s) = writesIssued s := by
    have hnf : channelFailed (confirmResult m s) = false := by
      simp [channelFailed, (h.session.noError_of_isBusy hb).1]
    rw [writesIssued_of_inflight hi, writesIssued, hconf, confirmResult_inflight, hnf]
    rfl
  have hcount : s.bytesSent + m.setWidth 32 = BitVec.ofNat 32 (acc s.payloadLen.toNat (writesConfirmed s)) := by
    have hsent := hrow.bytesSent_eq
    rw [hconf, confirmResult_payloadLen, confirmResult_bytesSent, bytesConfirmed] at hsent
    rw [← hsent, BitVec.ofNat_toNat, BitVec.setWidth_eq]
  refine ⟨hrow, fun _ => by simpa using hbm, by simpa using h.pixels, ?_, ⟨before, ?_⟩, ⟨beforeP, ?_⟩⟩
  · rw [hissued, confirmResult_cs, confirmResult_jobRequests]
    exact h.issued
  · rw [confirmResult_delivered, confirmResult_jobRequests, hconf, portRequest, if_pos hi, h.portRequest_eq hi hreq]
    exact append_take_succ hdel hreq
  · rw [confirmResult_progress, confirmResult_accPrefix, hconf, hcount, hprog, List.append_assoc]
    simp [accPrefix, List.range_succ]

/-! ### Steps that touch no register of a job -/

/-- The session registers give the row of R37. -/
theorem sessionRow_congr {s t : State} (h : SameSession s t) (hrow : SessionRow s) : SessionRow t := by
  obtain ⟨hq, hgeom, hlen, hsent, hcur, hidx, hi, he, hg⟩ := h
  simpa only [SessionRow, HeaderRow, ChunkRow, TrailerRow, DoneRow, FailedRow, NoSession, NoError, ValidGeometry,
    Counters, geomWb, geomHt, hq, hgeom, hlen, hsent, hcur, hidx, hi, he, hg] using hrow

theorem writesConfirmed_congr {s t : State} (h : SameSession s t) : writesConfirmed t = writesConfirmed s := by
  obtain ⟨hq, -, -, -, -, hidx, -, -, hg⟩ := h
  simp only [writesConfirmed, hq, hidx, hg]

theorem channelFailed_congr {s t : State} (h : SameSession s t) : channelFailed t = channelFailed s := by
  obtain ⟨hq, -, -, -, -, -, -, he, -⟩ := h
  rw [channelFailed, channelFailed, hq, he]

theorem writesIssued_congr {s t : State} (h : SameSession s t) : writesIssued t = writesIssued s := by
  obtain ⟨-, -, -, -, -, -, hi, -⟩ := id h
  rw [writesIssued, writesIssued, writesConfirmed_congr h, channelFailed_congr h, hi]

theorem holdsJob_congr {s t : State} (h : SameSession s t) : holdsJob t = holdsJob s := by
  obtain ⟨hq, -⟩ := id h
  rw [holdsJob, holdsJob, isBusy, isBusy, channelFailed_congr h, hq]

/-- A step that keeps the session registers, the streams and the bytes of BM in the writes issued keeps a state sound. -/
theorem Sound.of_frame {s t : State} (h : Sound s) (same : SameSession s t) (pixels : Memory.wf t.pm)
    (hcs : t.cs = s.cs) (hdel : t.delivered = s.delivered) (hprog : t.progress = s.progress)
    (hbm : t.bm.length = s.bm.length)
    (hreq : (jobRequests t).take (writesIssued s) = (jobRequests s).take (writesIssued s)) : Sound t := by
  have hreqc : (jobRequests t).take (writesConfirmed s) = (jobRequests s).take (writesConfirmed s) := by
    have hle := writesConfirmed_le_writesIssued s
    rw [← min_eq_left hle, ← List.take_take, hreq, List.take_take]
  obtain ⟨-, -, hlen, -⟩ := id same
  refine ⟨sessionRow_congr same h.session, fun hj => ?_, pixels, ?_, ?_, ?_⟩
  · rw [hbm, hlen]
    exact h.bitmap (holdsJob_congr same ▸ hj)
  · rw [hcs, writesIssued_congr same, hreq]
    exact h.issued
  · rw [hdel, writesConfirmed_congr same, hreqc]
    exact h.confirmed
  · rw [hprog, writesConfirmed_congr same, accPrefix, hlen]
    exact h.reported

/-- A host read, a register write or a turn taken off the agenda keeps a state sound. -/
theorem Sound.of_same_job {s t : State} (h : Sound s) (same : SameSession s t) (hbm : t.bm = s.bm) (hpm : t.pm = s.pm)
    (hcs : t.cs = s.cs) (hdel : t.delivered = s.delivered) (hprog : t.progress = s.progress) : Sound t := by
  obtain ⟨-, hgeom, hlen, -⟩ := id same
  refine h.of_frame same (hpm ▸ h.pixels) hcs hdel hprog (by rw [hbm]) ?_
  rw [jobRequests, geomWb, geomHt, hgeom, hlen, hbm]
  rfl

theorem Sound.agenda {s : State} (h : Sound s) (a : List Turn) : Sound { s with agenda := a } :=
  h.of_same_job ⟨rfl, rfl, rfl, rfl, rfl, rfl, rfl, rfl, rfl⟩ rfl rfl rfl rfl rfl

/-! ### The host's write of pixel memory (20_memory.md R52, 70_reset_and_hazards.md R235) -/

theorem hostPixelWrite_bm_cases (p : BitVec 35) (x : Sample) (s : State) :
    (hostPixelWrite p x s).bm = s.bm ∨
    (isBusy s = true ∧ ∃ j v, issuedPayload s ≤ j ∧ (hostPixelWrite p x s).bm = s.bm.set j v) := by
  rw [hostPixelWrite_bm]
  split
  · rename_i ho
    simp only [opensBitmapByte, Bool.and_eq_true, decide_eq_true_eq] at ho
    obtain ⟨⟨hb, -⟩, hj⟩ := ho
    exact .inr ⟨hb, _, _, hj, rfl⟩
  · exact .inl rfl

/-- A payload byte not issued yet lies behind every chunk issued. -/
theorem jobSched_take_set {s : State} (hrow : SessionRow s) (hb : isBusy s = true)
    (hbm : s.bm.length = s.payloadLen.toNat) {j : Nat} {v : Byte} (hj : issuedPayload s ≤ j) :
    (sched (geomWb s) (geomHt s) (s.bm.set j v) s.payloadLen.toNat).take (writesIssued s) =
      (jobSched s).take (writesIssued s) := by
  rcases (isBusy_iff s).mp hb with hq | hq | hq
  · have hk : writesIssued s ≤ 0 + 1 := by
      rw [writesIssued, writesConfirmed_sendHdr hq]; split <;> omega
    have hhdr := sched_take_congr (wb := geomWb s) (ht := geomHt s) (bm := s.bm) (bm' := s.bm.set j v)
      (Nat.zero_le (chunkCount s.payloadLen.toNat)) (fun k hk => absurd hk (Nat.not_lt_zero k))
    rw [← min_eq_left hk, ← List.take_take, hhdr, List.take_take, jobSched]
  · obtain ⟨⟨-, hidx, hoff, -, hcur, -⟩, -⟩ := (sessionRow_sendChunk hq).mp hrow
    rw [Config.chunkSize] at hoff hcur
    obtain ⟨c, hc, hcn, hbehind⟩ : ∃ c, writesIssued s = c + 1 ∧ c ≤ chunkCount s.payloadLen.toNat ∧
        ∀ k < c, 128 * k + min 128 (s.payloadLen.toNat - 128 * k) ≤ j := by
      simp only [issuedPayload, hq, hcur, Config.chunkSize] at hj
      cases hi : s.inflight with
      | true =>
        rw [hi, if_pos rfl] at hj
        refine ⟨s.chunkIdx.toNat + 1, ?_, hidx, fun k hk => by omega⟩
        rw [writesIssued_of_inflight hi, writesConfirmed_sendChunk hq]; omega
      | false =>
        rw [hi, if_neg Bool.false_ne_true] at hj
        refine ⟨s.chunkIdx.toNat, ?_, hidx.le, fun k hk => by omega⟩
        rw [writesIssued_of_idle_port hb hi, writesConfirmed_sendChunk hq]; omega
    rw [hc]
    exact sched_take_congr hcn fun k hk => chunk_set (hbehind k hk)
  · simp only [issuedPayload, hq] at hj
    rw [List.set_eq_of_length_le (hbm ▸ hj), jobSched]

theorem hostPixelWrite_sound {s : State} (h : Sound s) (p : BitVec 35) (x : Sample) : Sound (hostPixelWrite p x s) := by
  have same : SameSession s (hostPixelWrite p x s) := ⟨rfl, rfl, rfl, rfl, rfl, rfl, rfl, rfl, rfl⟩
  refine h.of_frame same (writeSample_wf p x h.pixels) rfl rfl rfl ?_ ?_
  · rcases hostPixelWrite_bm_cases p x s with hbm | ⟨-, j, v, -, hbm⟩
    · rw [hbm]
    · rw [hbm, List.length_set]
  · show List.take _ ((sched (geomWb s) (geomHt s) (hostPixelWrite p x s).bm s.payloadLen.toNat).map requestOf) = _
    rcases hostPixelWrite_bm_cases p x s with hbm | ⟨hb, j, v, hj, hbm⟩
    · rw [hbm, jobRequests]
    · rw [hbm, ← List.map_take, jobSched_take_set h.session hb (h.bitmap (holdsJob_of_isBusy hb)) hj, List.map_take]
      rfl

/-! ### Every step -/

theorem Effect.sound {s t : State} {c : Cause} (h : Sound s) (he : Effect s c t) : Sound t := by
  cases he with
  | same => exact h
  | read | width | height => exact h.of_same_job ⟨rfl, rfl, rfl, rfl, rfl, rfl, rfl, rfl, rfl⟩ rfl rfl rfl rfl rfl
  | start hb => exact startJob_sound h
  | clear hend => exact leaveEndState_sound h
  | confirm m hi hm => exact confirmResult_sound h hi hm
  | failure g hi hg => exact failResult_sound h hi hg
  | reset => exact resetBlock_sound h
  | issue c m bytes hen hm hb => exact issueResult_sound h hen hm hb
  | pixel p x => exact hostPixelWrite_sound h p x
  | cycle a => exact h.agenda a

/-- Settles O40: the turn is taken off the agenda, and each effect it can have keeps a state sound. -/
theorem stepKeepsStatesSound : Obligations.StepKeepsStatesSound := by
  intro s t h hstep
  obtain ⟨rest, c, -, he⟩ := step_effect hstep
  exact he.sound (h.agenda rest)

/-! ### What follows from soundness (R27, R30 to R32, R37, R42) -/

/-- Settles O39: the row IDLE with nothing in flight, an empty pixel memory and empty streams. -/
theorem resetStateIsSound : Obligations.ResetStateIsSound :=
  .of_noSession ⟨rfl, rfl, rfl, rfl, rfl⟩ rfl rfl (.inl ⟨rfl, rfl⟩) Memory.wf_nil

/-- In each of R37's rows for FAILED an error is recorded, and a stage with it exactly after a channel failure. -/
theorem FailedRow.error_iff {s : State} (h : FailedRow s) :
    s.errCode ≠ .none ∧ (s.errStage ≠ .none ↔ s.errCode = .channelWriteFailed) := by
  rcases h with ⟨-, hc | hc, hg⟩ | ⟨hc, ⟨hg, -⟩ | ⟨hg, -⟩ | ⟨hg, -⟩⟩ <;> simp [hc, hg]

/-- Settles O42: the rows of R37, those of FAILED and the others. -/
theorem errorAndInflightFollowState : Obligations.ErrorAndInflightFollowState := by
  intro s h
  refine ⟨?_, ?_, h.session.isBusy_of_inflight⟩
  all_goals by_cases hq : s.seqState = .failed
  · obtain ⟨hrow, -⟩ := (sessionRow_failed hq).mp h.session
    exact iff_of_true hrow.error_iff.1 hq
  · obtain ⟨hc, -⟩ := h.session.noError_of_not_failed hq
    exact iff_of_false (not_not_intro hc) hq
  · obtain ⟨hrow, -⟩ := (sessionRow_failed hq).mp h.session
    exact hrow.error_iff.2
  · obtain ⟨hc, hg⟩ := h.session.noError_of_not_failed hq
    simp [hc, hg]

/-- Settles O49: the confirmed writes are the first of the schedule, and acc adds up their lengths. -/
theorem bytesSentIsTheSumOfDeliveredWrites : Obligations.BytesSentIsTheSumOfDeliveredWrites := by
  intro s h
  obtain ⟨before, hdel⟩ := h.confirmed
  refine ⟨before, writesConfirmed s, hdel, ?_⟩
  rw [h.session.bytesSent_eq]
  cases hj : holdsJob s with
  | true =>
    rw [← sum_take_sched_length (wb := geomWb s) (ht := geomHt s) (h.bitmap hj) h.session.writesConfirmed_le, jobRequests,
      ← List.map_take, List.map_map]
    rfl
  | false =>
    rw [h.session.writesConfirmed_of_no_job hj]
    rfl

/-! ### BYTES_SENT and pixel memory under every step (R27, R39) -/

theorem nextIs_of_caused {s : State} {rest : List Turn} {i : Instr} (h : Caused s rest (.op i)) : NextIs s i := by
  obtain ⟨raw, ha, hd⟩ := h
  exact ⟨raw, rest, ha, hd⟩

theorem startJob_bytesSent (s : State) : (startJob s).bytesSent = 0 := by
  rcases startJob_cases s with ⟨-, he⟩ | ⟨-, -, he⟩ | ⟨-, -, he⟩ <;> rw [he] <;> rfl

theorem startJob_pm (s : State) : (startJob s).pm = s.pm := by
  rcases startJob_cases s with ⟨-, he⟩ | ⟨-, -, he⟩ | ⟨-, -, he⟩ <;> rw [he] <;> rfl

/-- A confirmation adds the length of the outstanding request, without wrapping (R27, R142). -/
theorem confirmResult_bytesSent_toNat {s : State} {m : BitVec 8} (h : Sound s) (hi : s.inflight = true)
    (hm : curLen s = some m) : ∃ req, s.cs.getLast? = some req ∧
      (confirmResult m s).delivered = s.delivered ++ [req] ∧
      (confirmResult m s).bytesSent.toNat = s.bytesSent.toNat + req.data.length := by
  have hb := h.session.isBusy_of_inflight hi
  obtain ⟨bytes, hsched, -, hreq, -⟩ := h.current_request hb hm
  obtain ⟨hrow, hconf⟩ := confirmResult_session h.session hm
  have hlast := h.portRequest_eq hi hreq
  refine ⟨⟨m, bytes⟩, hlast, ?_, ?_⟩
  · rw [confirmResult_delivered, portRequest, if_pos hi, hlast]
    rfl
  · rw [hrow.bytesSent_eq, hconf, confirmResult_payloadLen,
      bytesConfirmed_succ (h.bitmap (holdsJob_of_isBusy hb)) hsched, h.session.bytesSent_eq]

/-- Settles O21: of the effects a step can have, START, CLEAR and reset clear BYTES_SENT and a confirmation adds to it. -/
theorem bytesSentCountsConfirmedBytes : Obligations.BytesSentCountsConfirmedBytes := by
  intro s t hstep hne
  obtain ⟨rest, c, hcause, he⟩ := step_effect hstep
  cases he with
  | start hb => exact .inl ⟨startJob_bytesSent _, .inl (nextIs_of_caused hcause)⟩
  | clear hend => exact .inl ⟨rfl, .inr (.inl (nextIs_of_caused hcause))⟩
  | reset => exact .inl ⟨rfl, .inr (.inr (nextIs_of_caused hcause))⟩
  | confirm m hi hm =>
    exact .inr ⟨nextIs_of_caused hcause, fun h => confirmResult_bytesSent_toNat (h.agenda rest) hi hm⟩
  | same | read | width | height | failure | issue | pixel | cycle => exact absurd rfl hne

/-- Settles O51: the host's pixel write is the one effect that stores to pixel memory. -/
theorem onlyTheHostWritesPixelMemory : Obligations.OnlyTheHostWritesPixelMemory := by
  intro s t hstep hno
  obtain ⟨rest, c, hcause, he⟩ := step_effect hstep
  cases he with
  | pixel p x => exact absurd ⟨p, x, rest, hcause⟩ hno
  | start hb => exact startJob_pm _
  | confirm m hi hm => exact confirmResult_pm m _
  | same | read | width | height | clear | failure | reset | issue | cycle => rfl

/-! ### The register map and the host bus (R36, R60, R160) -/

theorem registerMap_reserved (s : State) {n : Nat} (h : 10 ≤ n) : registerMap s n = 0 := by
  obtain ⟨k, rfl⟩ := Nat.exists_eq_add_of_le' h
  rfl

/-- A read returns the register map's word of its slot. -/
theorem exec_decodeRead (slot : BitVec 6) (s : State) :
    exec (decodeRead slot) s = .next (hostRead (registerMap s slot.toNat) s) := by
  unfold decodeRead
  split
  case h_11 =>
    rw [registerMap_reserved s (by grind)]
    rfl
  all_goals rename_i hslot
  all_goals rw [hslot]
  all_goals rfl

/-- No command is refused, whatever STATE is (R173 to R176). -/
theorem exec_decodeCommand (cmd : BitVec 4) (s : State) : ∃ t, exec (decodeCommand cmd) s = .next t := by
  unfold decodeCommand
  split
  · exact ⟨s, rfl⟩
  · show ∃ t, execCmdStart s = .next t
    unfold execCmdStart
    split
    · exact ⟨_, rfl⟩
    · exact ⟨_, rfl⟩
  · show ∃ t, execCmdClear s = .next t
    unfold execCmdClear
    split
    · exact ⟨_, rfl⟩
    · exact ⟨_, rfl⟩
  · exact ⟨s, rfl⟩

theorem exec_decodeWrite (slot : BitVec 6) (wdata : BitVec 32) (s : State) :
    ∃ t, exec (decodeWrite slot wdata) s = .next t := by
  unfold decodeWrite
  split
  · exact exec_decodeCommand _ s
  · exact ⟨_, rfl⟩
  · exact ⟨_, rfl⟩
  · exact ⟨s, rfl⟩

theorem hbWe_eq_one_iff (w : BitVec 41) : hbWe w = 1 ↔ w.getLsbD 40 = true := by
  rw [hbWe, BitVec.eq_of_getLsbD_eq_iff]
  constructor
  · intro h
    simpa using h 0 (by omega)
  · intro h i hi
    obtain rfl : i = 0 := by omega
    simpa using h

/-- Settles O10: reads by the register map, writes and commands by their slot. -/
theorem hostAccessIsNeverRefused : Obligations.HostAccessIsNeverRefused := by
  intro s w rest ha
  have hstep : step s = exec (decodeHb w) { s with agenda := rest } := step_of_op ha rfl
  have hread (hwe : w.getLsbD 40 = false) : step s =
      .next { s with agenda := rest, reads := s.reads ++ [registerMap s (w.extractLsb' 34 6).toNat] } := by
    have hne : ¬ hbWe w = 1 := mt (hbWe_eq_one_iff w).mp (Bool.eq_false_iff.mp hwe)
    rw [hstep, decodeHb, if_neg hne, exec_decodeRead]
    rfl
  refine ⟨?_, hread⟩
  cases hwe : w.getLsbD 40 with
  | false => exact ⟨_, hread hwe⟩
  | true =>
    rw [hstep, decodeHb, if_pos ((hbWe_eq_one_iff w).mpr hwe)]
    exact exec_decodeWrite _ _ _

/-! ### STATUS and the table of reset values (R22, R31 to R33, R40, R42) -/

/-- Every bit of STATUS, by the field it lies in (R33). -/
theorem statusWord_getLsbD (s : State) (i : Nat) :
    (statusWord s).getLsbD i =
      if i < 4 then (seqCode s.seqState).getLsbD i
      else if i < 8 then (errBits s.errCode).getLsbD (i - 4)
      else if i < 10 then (stageBits s.errStage).getLsbD (i - 8)
      else if i = 10 then s.inflight
      else if i = 11 then isBusy s
      else if i = 12 then jobEnd s
      else false := by
  show BitVec.getLsbD (w := 19 + (1 + (1 + (1 + (2 + (4 + 4)))))) (0#19 ++ (BitVec.ofBool (jobEnd s) ++
    (BitVec.ofBool (isBusy s) ++ (BitVec.ofBool s.inflight ++
      (stageBits s.errStage ++ (errBits s.errCode ++ seqCode s.seqState)))))) i = _
  simp only [BitVec.getLsbD_append, BitVec.getLsbD_ofBool, BitVec.getLsbD_zero]
  obtain hi | rfl | rfl | rfl | hi : i < 10 ∨ i = 10 ∨ i = 11 ∨ i = 12 ∨ 12 < i := by omega
  · grind
  · rfl
  · rfl
  · rfl
  · grind

/-- A field of STATUS is the value that its bits spell. -/
theorem statusWord_field {s : State} {low n : Nat} {v : BitVec n}
    (h : ∀ i < n, (statusWord s).getLsbD (low + i) = v.getLsbD i) : (statusWord s).extractLsb' low n = v := by
  refine BitVec.eq_of_getLsbD_eq fun i hi => ?_
  rw [BitVec.getLsbD_extractLsb', h i hi, decide_eq_true hi, Bool.true_and]

/-- STATUS looks at four fields of the state alone (R33). -/
theorem statusWord_eq {s : State} {q : SeqState} {e : ErrCode} {g : Stage} {i : Bool} (hq : s.seqState = q)
    (he : s.errCode = e) (hg : s.errStage = g) (hi : s.inflight = i) :
    statusWord s = statusWord { State.reset with seqState := q, errCode := e, errStage := g, inflight := i } := by
  subst hq he hg hi
  rfl

/-- Settles O4: the fields by their bits, and the words of R162 by evaluation. -/
theorem statusReadsItsFields : Obligations.StatusReadsItsFields := by
  refine ⟨fun s low wdata => ⟨decode_read 1 low wdata, rfl⟩, fun s => ⟨?_, ?_, ?_, ?_, ?_, ?_, ?_, isBusy_iff s,
    jobEnd_iff s, ?_, ?_, ?_, by decide, rfl, rfl⟩⟩
  · exact statusWord_field fun i hi => by rw [statusWord_getLsbD]; grind
  · exact statusWord_field fun i hi => by rw [statusWord_getLsbD]; grind
  · exact statusWord_field fun i hi => by rw [statusWord_getLsbD]; grind
  · rw [statusWord_getLsbD]; rfl
  · rw [statusWord_getLsbD]; rfl
  · rw [statusWord_getLsbD]; rfl
  · exact statusWord_field fun i hi => by rw [statusWord_getLsbD]; grind
  · rintro ⟨he, hg⟩ hq hi
    rw [statusWord_eq hq he hg hi]
    decide
  · rintro ⟨he, hg⟩ hq hi
    rw [statusWord_eq hq he hg hi]
    decide
  · intro hq he hg hi
    rw [statusWord_eq hq he hg hi]
    decide

/-- Settles O5: the codes in the order of the rules' tables. -/
theorem registerCodesAreTheTables : Obligations.RegisterCodesAreTheTables :=
  ⟨rfl, rfl, rfl⟩

/-- Settles O38: the registers of State.reset, and its two words by evaluation. -/
theorem resetStateIsTheTable : Obligations.ResetStateIsTheTable :=
  ⟨rfl, rfl, rfl, rfl, rfl, rfl, rfl, rfl, rfl, rfl, rfl, by decide, by decide, rfl, rfl, rfl⟩

end Sys2Proof.Machine
end

section
/-! Proofs for 20_memory.md: byte lanes (R59), the packed byte (R57), the channel stream (R54, R81), no fault
in a sound state (R53), the delivered frame (R58), and what a host write of pixel memory does (R52, R235). -/

namespace Sys2Proof.Machine

open Sys2Proof.Claims

/-! ### Byte lanes and packed bits (R57, R59) -/

theorem byteLane_getLsbD (w : Word) (k : Nat) {i : Nat} (hi : i < 8) :
    (byteLane k w).getLsbD i = w.getLsbD (8 * k + i) := by
  rw [byteLane, BitVec.getLsbD_extractLsb', decide_eq_true hi, Bool.true_and]

/-- Every bit of the joined lanes is the word's, by the lane it lies in. -/
theorem byteLanes_join (w : Word) : w = byteLane 3 w ++ (byteLane 2 w ++ (byteLane 1 w ++ byteLane 0 w)) := by
  refine BitVec.eq_of_getLsbD_eq fun i hi => ?_
  show _ = BitVec.getLsbD (w := 8 + (8 + (8 + 8))) _ i
  simp only [BitVec.getLsbD_append]
  grind [byteLane_getLsbD]

/-- Settles O11: each lane bit by bit, and the word bit by bit from its lanes. -/
theorem byteLanesAreLittleEndian : Obligations.ByteLanesAreLittleEndian :=
  fun w => ⟨fun k _ _ hi => byteLane_getLsbD w k hi, byteLanes_join w⟩

/-- Settles O23: the law of PACK8. -/
theorem packPutsTheLeftmostPixelHighest : Obligations.PackPutsTheLeftmostPixelHighest :=
  fun pm draw w r c _ hk => pack8_getLsbD pm draw w r c hk

/-! ### The channel stream (R54, R81) -/

/-- Every write of a schedule carries 1 to 128 bytes (R81, R124, R125). -/
theorem sched_entry_length {wb ht : BitVec 16} {bm b : List Byte} {len k : Nat} (hbm : bm.length = len)
    (h : (sched wb ht bm len)[k]? = some b) : 1 ≤ b.length ∧ b.length ≤ 128 := by
  rcases sched_position h with ⟨-, rfl⟩ | ⟨j, hj, -, rfl⟩ | ⟨-, rfl⟩
  · rw [hdr_length]; omega
  · rw [chunkCount_eq] at hj
    rw [chunk_length hbm]; omega
  · rw [trl_length]; omega

theorem startJob_cs (s : State) : (startJob s).cs = s.cs := by
  rcases startJob_cases s with ⟨-, he⟩ | ⟨-, -, he⟩ | ⟨-, -, he⟩ <;> rw [he] <;> rfl

/-- Only the issue step extends the channel stream, and by the current write alone (R54, R141). -/
theorem Effect.cs {s t : State} {c : Cause} (he : Effect s c t) :
    t.cs = s.cs ∨ (issueEnabled s = true ∧ ∃ m bytes, curLen s = some m ∧ curBytes s = some bytes ∧
      t.cs = s.cs ++ [⟨m, bytes⟩]) := by
  cases he with
  | issue c m bytes hen hm hb => exact .inr ⟨hen, m, bytes, hm, hb, rfl⟩
  | start hb => exact .inl (startJob_cs s)
  | confirm m hi hm => exact .inl (confirmResult_cs m s)
  | same | read | width | height | clear | failure | reset | pixel | cycle => exact .inl rfl

/-- In a busy sound state LEN of the current write is the number of its bytes, 1 to 128 (R81). -/
theorem Sound.current_size {s : State} (h : Sound s) (hb : isBusy s = true) {m : BitVec 8} {bytes : List Byte}
    (hm : curLen s = some m) (hbytes : curBytes s = some bytes) :
    m.toNat = bytes.length ∧ 1 ≤ bytes.length ∧ bytes.length ≤ 128 := by
  obtain ⟨bytes', hsched, hbytes', -, hlen⟩ := h.current_request hb hm
  obtain rfl : bytes = bytes' := Option.some.inj (hbytes.symm.trans hbytes')
  exact ⟨hlen, sched_entry_length (h.bitmap (holdsJob_of_isBusy hb)) hsched⟩

/-- Settles O19: a step appends nothing, or the current write. -/
theorem channelStreamIsAppendOnly : Obligations.ChannelStreamIsAppendOnly := by
  intro s t hstep
  obtain ⟨rest, c, -, he⟩ := step_effect hstep
  rcases he.cs with hcs | ⟨hen, m, bytes, hm, hbytes, hcs⟩
  · exact ⟨[], by simpa using hcs, by simp, fun _ _ hreq => absurd hreq List.not_mem_nil⟩
  · refine ⟨[⟨m, bytes⟩], hcs, le_rfl, fun h req hreq => ?_⟩
    obtain rfl := List.mem_singleton.mp hreq
    exact (h.agenda rest).current_size ((issueEnabled_iff _).mp hen).1 hm hbytes

/-! ### No fault from a sound state (R53, R125, R140) -/

/-- In a sound state the bytes of the current write exist wherever the issue step is enabled. -/
theorem Sound.issueStep_answers {s : State} (h : Sound s) : ∃ t, issueStep s = .next t := by
  cases he : issueEnabled s with
  | false => exact ⟨s, issueStep_of_disabled he⟩
  | true =>
    obtain ⟨hb, -⟩ := (issueEnabled_iff s).mp he
    obtain ⟨bytes, -, hbytes, hm, -⟩ := current_write h.session hb (h.bitmap (holdsJob_of_isBusy hb))
    exact ⟨_, issueStep_of_enabled he hm hbytes⟩

theorem Sound.guarded_issue_answers {s : State} (h : Sound s) (p : Prop) [Decidable p] :
    ∃ t, (if p then issueStep s else .next s) = .next t := by
  split
  · exact h.issueStep_answers
  · exact ⟨s, rfl⟩

/-- In a sound state a write is current wherever a request is outstanding (R30, R140). -/
theorem Sound.execRspOk_answers {s : State} (h : Sound s) : ∃ t, execRspOk s = .next t := by
  unfold execRspOk
  split
  · rename_i hi
    have hb := h.session.isBusy_of_inflight hi
    obtain ⟨bytes, -, -, hm, -⟩ := current_write h.session hb (h.bitmap (holdsJob_of_isBusy hb))
    rw [hm]
    exact ⟨_, rfl⟩
  · exact ⟨s, rfl⟩

theorem stageOf_of_isBusy {s : State} (hb : isBusy s = true) : ∃ g, stageOf s = some g := by
  rcases (isBusy_iff s).mp hb with hq | hq | hq
  · exact ⟨.header, by simp only [stageOf, hq]⟩
  · exact ⟨.payload, by simp only [stageOf, hq]⟩
  · exact ⟨.trailer, by simp only [stageOf, hq]⟩

theorem Sound.execRspFail_answers {s : State} (h : Sound s) : ∃ t, execRspFail s = .next t := by
  unfold execRspFail
  split
  · rename_i hi
    obtain ⟨g, hg⟩ := stageOf_of_isBusy (h.session.isBusy_of_inflight hi)
    rw [hg]
    exact ⟨_, rfl⟩
  · exact ⟨s, rfl⟩

/-- Every operation has a next state in a sound state. -/
theorem Sound.exec_answers {s : State} (h : Sound s) (i : Instr) : ∃ t, exec i s = .next t := by
  cases i with
  | rdCtrl | rdStatus | rdWidthPx | rdHeight | rdGeometry | rdPayloadLen | rdBytesSent | rdCursor | rdChunkIdx
  | rdParams | rdRsvd | wrWidthPx | wrHeight | wrIgnored | cmdNop | cmdRsvd | reset => exact ⟨_, rfl⟩
  | cmdStart => exact exec_decodeCommand 1 s
  | cmdClear => exact exec_decodeCommand 2 s
  | rspOk => exact h.execRspOk_answers
  | rspFail => exact h.execRspFail_answers
  | wireEscAt | wireGsV0 | wireRasterData | wireEscD0 => exact h.guarded_issue_answers _

theorem step_of_together {s : State} {reset response host rest}
    (ha : s.agenda = .together reset response host :: rest) :
    step s = .next { s with agenda := arbitrate reset response host ++ rest } := by
  simp [step, ha, turnStep]

/-- A sound state's step answers a next state, or refuses bits that are no row of the table (log 15). -/
theorem Sound.step_answers {s : State} (h : Sound s) :
    (∃ t, step s = .next t) ∨ ∃ why, step s = .refused (.undecodable why) := by
  cases ha : s.agenda with
  | nil =>
    left
    simpa only [step, ha, idleStep] using h.issueStep_answers
  | cons turn rest =>
    cases turn with
    | op raw =>
      cases hd : decode raw with
      | ok i =>
        left
        rw [step_of_op ha hd]
        exact (h.agenda rest).exec_answers i
      | error why => exact .inr ⟨why, step_of_rejected_op ha hd⟩
    | block =>
      left
      rw [step_of_block ha]
      exact (h.agenda rest).issueStep_answers
    | pixel p x => exact .inl ⟨_, step_of_pixel ha⟩
    | together r k host => exact .inl ⟨_, step_of_together ha⟩

/-- Settles O41: the step answers a next state or a refusal, and neither is a fault. -/
theorem soundStatesNeverFault : Obligations.SoundStatesNeverFault := by
  intro s h r hfault
  rcases h.step_answers with ⟨t, ht⟩ | ⟨why, hwhy⟩
  · cases ht.symm.trans hfault
  · cases hwhy.symm.trans hfault

/-! ### The frame that a finished job delivered (R58, R122, R126) -/

/-- The first k chunks are the first 128 k bytes of BM (R124, R125). -/
theorem flatMap_chunk_range (bm : List Byte) (k : Nat) :
    (List.range k).flatMap (chunk bm bm.length) = bm.take (128 * k) := by
  induction k with
  | zero => rfl
  | succ k ih =>
    have hchunk : chunk bm bm.length k = (bm.drop (128 * k)).take 128 := by
      rw [chunk_eq, bmSlice, List.take_eq_take_min (i := 128), List.length_drop]
    rw [List.range_succ, List.flatMap_append, ih, List.flatMap_singleton, hchunk, Nat.mul_succ, List.take_add]

/-- The writes of a schedule joined are the frame (R122, R126). -/
theorem sched_flatten (wb ht : BitVec 16) (bm : List Byte) : (sched wb ht bm bm.length).flatten = frame wb ht bm := by
  have hn := chunkCount_eq bm.length
  have hchunks : ((List.range (chunkCount bm.length)).map (chunk bm bm.length)).flatten = bm := by
    rw [← List.flatMap_def, flatMap_chunk_range, List.take_of_length_le (by omega)]
  rw [sched, List.flatten_cons, List.flatten_append, hchunks, List.flatten_singleton, frame, List.append_assoc]

theorem frame_length (wb ht : BitVec 16) (bm : List Byte) : (frame wb ht bm).length = 13 + bm.length := by
  simp only [frame, List.length_append, hdr_length, trl_length]
  omega

theorem jobRequests_length (s : State) : (jobRequests s).length = chunkCount s.payloadLen.toNat + 2 := by
  rw [jobRequests, List.length_map, sched_length]

/-- The data of a job's requests joined are its frame (R126). -/
theorem jobRequests_data_flatten {s : State} (hbm : s.bm.length = s.payloadLen.toNat) :
    ((jobRequests s).map (·.data)).flatten = frame (geomWb s) (geomHt s) s.bm := by
  have hdata : (fun req : WriteReq => req.data) ∘ requestOf = id := rfl
  rw [jobRequests, List.map_map, hdata, List.map_id, ← hbm, sched_flatten]

/-- Settles O50: in DONE all n + 2 writes of the schedule are confirmed. -/
theorem doneJobDeliveredItsFrame : Obligations.DoneJobDeliveredItsFrame := by
  intro s h hq
  obtain ⟨⟨⟨-, -, hlen⟩, hidx, -⟩, -⟩ := (sessionRow_done hq).mp h.session
  have hbm : s.bm.length = s.payloadLen.toNat := h.bitmap (by simp [holdsJob, hq])
  obtain ⟨before, hdel⟩ := h.confirmed
  have hall : (jobRequests s).length ≤ writesConfirmed s := by
    rw [jobRequests_length, writesConfirmed_done hq]; omega
  rw [List.take_of_length_le hall] at hdel
  refine ⟨before, jobRequests s, hdel, jobRequests_length s, jobRequests_data_flatten hbm, ?_⟩
  rw [frame_length, hbm, hlen]

/-! ### A host write of one pixel sample (R52, R53, R235) -/

/-- Every byte of pixel memory after a sample was written (R52). -/
theorem memGet_writeSample (m : Memory) (p : Nat) (x : Sample) (a : Nat) :
    memGet (writeSample m p x) a =
      if a = 4 * p then some x.r else if a = 4 * p + 1 then some x.g
      else if a = 4 * p + 2 then some x.b else if a = 4 * p + 3 then some x.a else memGet m a := by
  simp only [writeSample, memGet_memSet, sampleAddr_eq, Nat.add_zero]
  grind

/-- A written sample reads back, whatever the free values are. -/
theorem pixRead_writeSample_same (m : Memory) (p : Nat) (x : Sample) (draw : Nat) :
    pixRead (writeSample m p x) draw p = x := by
  apply pixRead_of_memGet
  all_goals simp [memGet_writeSample, sampleAddr_eq]

/-- The bytes of two samples do not overlap, so every other sample reads as before. -/
theorem pixRead_writeSample_ne (m : Memory) {p q : Nat} (h : q ≠ p) (x : Sample) (draw : Nat) :
    pixRead (writeSample m p x) draw q = pixRead m draw q := by
  have hbyte {k : Nat} (hk : k < 4) : memGet (writeSample m p x) (sampleAddr q k) = memGet m (sampleAddr q k) := by
    rw [memGet_writeSample, sampleAddr_eq, if_neg (by omega), if_neg (by omega), if_neg (by omega), if_neg (by omega)]
  simp only [pixRead, pixelByte_congr (hbyte (k := 0) (by omega)), pixelByte_congr (hbyte (k := 1) (by omega)),
    pixelByte_congr (hbyte (k := 2) (by omega)), pixelByte_congr (hbyte (k := 3) (by omega))]

theorem sampleByte_eq (p : Nat) : sampleByte p = p / 8 := rfl

theorem hostPixelWrite_bm_length (p : BitVec 35) (x : Sample) (s : State) :
    (hostPixelWrite p x s).bm.length = s.bm.length := by
  rcases hostPixelWrite_bm_cases p x s with hbm | ⟨-, j, v, -, hbm⟩
  · rw [hbm]
  · rw [hbm, List.length_set]

/-- Sample p lies in byte p / 8 of BM, so no other byte is opened (R235). -/
theorem hostPixelWrite_bm_getElem?_ne (p : BitVec 35) (x : Sample) (s : State) {j : Nat} (hj : j ≠ p.toNat / 8) :
    (hostPixelWrite p x s).bm[j]? = s.bm[j]? := by
  rw [hostPixelWrite_bm, sampleByte_eq]
  split
  · exact List.getElem?_set_ne (Ne.symm hj)
  · rfl

/-- Settles O52: the laws of the host's pixel write, in the order of the statement. -/
theorem pixelWriteStoresOneSample : Obligations.PixelWriteStoresOneSample := by
  intro s p x rest ha
  refine ⟨_, step_of_pixel ha, rfl, memGet_writeSample s.pm p.toNat x, fun draw => ⟨?_, fun q hq => ?_⟩, ?_, ?_⟩
  · exact pixRead_writeSample_same s.pm p.toNat x draw
  · exact pixRead_writeSample_ne s.pm hq x draw
  · exact hostPixelWrite_bm_length p x _
  · exact fun j hj => hostPixelWrite_bm_getElem?_ne p x _ hj

/-! ### Pixel writes that leave the snapshot alone (R53, R62, R235) -/

theorem opensBitmapByte_iff (p : Nat) (x : Sample) (s : State) :
    opensBitmapByte p x s = true ↔
      isBusy s = true ∧ sampleChanges s.pm p x = true ∧ issuedPayload s ≤ p / 8 := by
  rw [opensBitmapByte, Bool.and_eq_true, Bool.and_eq_true, decide_eq_true_eq, and_assoc, sampleByte_eq]

/-- A write of a sample keeps BM if any byte that it opens lies behind the end of BM. -/
theorem hostPixelWrite_bm_eq {s : State} {p : BitVec 35} {x : Sample}
    (h : opensBitmapByte p.toNat x s = true → s.bm.length ≤ p.toNat / 8) : (hostPixelWrite p x s).bm = s.bm := by
  rw [hostPixelWrite_bm, sampleByte_eq]
  split
  · rename_i ho
    exact List.set_eq_of_length_le (h ho)
  · rfl

/-- Writing the four bytes that a sample already has changes nothing (R235, log 20). -/
theorem sampleChanges_of_memGet {pm : Memory} {p : Nat} {x : Sample}
    (hr : memGet pm (4 * p) = some x.r) (hg : memGet pm (4 * p + 1) = some x.g)
    (hb : memGet pm (4 * p + 2) = some x.b) (ha : memGet pm (4 * p + 3) = some x.a) :
    sampleChanges pm p x = false := by
  simp [sampleChanges, sampleAddr_eq, hr, hg, hb, ha]

/-- Every byte below CURSOR is issued (R28, R37). -/
theorem SessionRow.cursor_le_issuedPayload {s : State} (hrow : SessionRow s) (hb : isBusy s = true) :
    s.cursor.toNat ≤ issuedPayload s := by
  rcases (isBusy_iff s).mp hb with hq | hq | hq
  · obtain ⟨⟨-, -, hcur, -⟩, -⟩ := (sessionRow_sendHdr hq).mp hrow
    rw [hcur]
    exact Nat.zero_le _
  · simp only [issuedPayload, hq]
    split <;> omega
  · obtain ⟨⟨-, -, hcur, -⟩, -⟩ := (sessionRow_sendTrl hq).mp hrow
    simp only [issuedPayload, hq, hcur, le_refl]

/-- The chunk in flight counts as issued (log 10). -/
theorem issuedPayload_of_chunk_inflight {s : State} (hq : s.seqState = .sendChunk) (hi : s.inflight = true) :
    issuedPayload s = s.cursor.toNat + chunkBytes s := by
  simp only [issuedPayload, hq, hi, if_true]
  rfl

/-- In a busy state GEOMETRY and PAYLOAD_LEN are those of a job (R37). -/
theorem SessionRow.validGeometry_of_isBusy {s : State} (hrow : SessionRow s) (hb : isBusy s = true) :
    ValidGeometry s := by
  rcases (isBusy_iff s).mp hb with hq | hq | hq
  · exact ((sessionRow_sendHdr hq).mp hrow).1.1
  · exact ((sessionRow_sendChunk hq).mp hrow).1.1
  · exact ((sessionRow_sendTrl hq).mp hrow).1.1

/-- In a busy sound state a sample outside the image lies behind BM (R53). -/
theorem Sound.bm_length_le_of_outside {s : State} (h : Sound s) (hb : isBusy s = true) {p : Nat}
    (hp : 8 * (geomWb s).toNat * (geomHt s).toNat ≤ p) : s.bm.length ≤ p / 8 := by
  obtain ⟨-, -, hlen⟩ := h.session.validGeometry_of_isBusy hb
  rw [h.bitmap (holdsJob_of_isBusy hb), hlen]
  rw [Nat.mul_assoc] at hp
  omega

/-- Settles O53: in each clause the write opens no byte of BM. -/
theorem snapshotSurvivesHarmlessPixelWrites : Obligations.SnapshotSurvivesHarmlessPixelWrites := by
  intro s t p x rest h ha hstep hharmless
  obtain rfl : hostPixelWrite p x { s with agenda := rest } = t :=
    Host.Outcome.next.inj ((step_of_pixel ha).symm.trans hstep)
  show (hostPixelWrite p x s).bm = s.bm
  refine hostPixelWrite_bm_eq fun ho => ?_
  obtain ⟨hb, hchanges, hissued⟩ := (opensBitmapByte_iff _ _ _).mp ho
  rcases hharmless with hidle | houtside | ⟨hr, hg, hb', ha'⟩ | hconfirmed | ⟨hq, hi, hflight⟩
  · exact absurd hb (Bool.eq_false_iff.mp hidle)
  · exact h.bm_length_le_of_outside hb houtside
  · exact absurd hchanges (Bool.eq_false_iff.mp (sampleChanges_of_memGet hr hg hb' ha'))
  · have hcur := h.session.cursor_le_issuedPayload hb
    omega
  · rw [issuedPayload_of_chunk_inflight hq hi] at hissued
    omega

end Sys2Proof.Machine
end

section
/-! Proofs for 30_encoding.md: the decoder against the encoder and against the rows of the opcode table (R71 to R85), the
reader of a frame (R79), the wire commands as issue steps (R75, log 5), and progress events (R83). -/

namespace Sys2Proof

/-! ### Operands read back (R71 to R78) -/

theorem decode_readWord (slot : BitVec 6) : decode (readWord slot) = .ok (decodeRead slot) := decode_read slot 0 0

theorem decode_writeWord (slot : BitVec 6) (wdata : BitVec 32) :
    decode (writeWord slot wdata) = .ok (decodeWrite slot wdata) := decode_write slot 0 wdata

theorem decodeRead_of_reserved {slot : BitVec 6} (h : reservedReadSlot slot = true) :
    decodeRead slot = .rdRsvd slot := by
  have hslot : 10 ≤ slot.toNat := of_decide_eq_true h
  unfold decodeRead
  split
  case h_11 => rfl
  all_goals omega

theorem decodeCommand_of_reserved {cmd : BitVec 4} (h : reservedCommand cmd = true) :
    decodeCommand cmd = .cmdRsvd cmd := by
  have hcmd : 3 ≤ cmd.toNat := of_decide_eq_true h
  unfold decodeCommand
  split
  case h_4 => rfl
  all_goals omega

theorem ignoredWriteSlot_iff (slot : BitVec 6) :
    ignoredWriteSlot slot = true ↔ slot.toNat ≠ 0 ∧ slot.toNat ≠ 2 ∧ slot.toNat ≠ 3 := by
  rw [ignoredWriteSlot, Bool.or_eq_true, decide_eq_true_eq, decide_eq_true_eq]
  omega

theorem decodeWrite_of_ignored {slot : BitVec 6} (h : ignoredWriteSlot slot = true) (wdata : BitVec 32) :
    decodeWrite slot wdata = .wrIgnored slot := by
  obtain ⟨h0, h2, h3⟩ := (ignoredWriteSlot_iff slot).mp h
  unfold decodeWrite
  split
  case h_4 => rfl
  all_goals contradiction

/-- A command code written with WDATA[31:4] = 0 is the code read (R73). -/
theorem cmdField_setWidth (cmd : BitVec 4) : cmdField (cmd.setWidth 32) = cmd := by
  refine BitVec.eq_of_getLsbD_eq fun i hi => ?_
  simp only [cmdField, BitVec.getLsbD_extractLsb', BitVec.getLsbD_setWidth]
  grind

/-- The size bytes of WIRE_GS_V_0 read back as WB and HT (R75, R76). -/
theorem decodeHdr_gsV0 (wb ht : BitVec 16) : decodeHdr (Config.gsV0 ++ sizeBytes wb ht) = .ok (.wireGsV0 wb ht) := by
  show Except.ok (Instr.wireGsV0 (joinBytes (lowByte wb) (highByte wb)) (joinBytes (lowByte ht) (highByte ht))) = _
  rw [joinBytes_split, joinBytes_split]

theorem decodeHdr_escAt : decodeHdr Config.escAt = .ok .wireEscAt := rfl

/-- Decode is a left inverse of encode on the well-formed operations: host-bus words by their slot and command, the rest
by the port's own bits. -/
theorem decode_encode {i : Instr} (h : i.wf = true) : decode (encode i) = .ok i := by
  cases i with
  | rdCtrl | rdStatus | rdWidthPx | rdHeight | rdGeometry | rdPayloadLen | rdBytesSent | rdCursor | rdChunkIdx
  | rdParams => exact decode_readWord _
  | rdRsvd slot => exact (decode_readWord slot).trans (congrArg _ (decodeRead_of_reserved h))
  | cmdNop | cmdStart | cmdClear => exact decode_writeWord _ _
  | cmdRsvd cmd =>
    have hcmd : decodeWrite 0 (cmd.setWidth 32) = decodeCommand cmd := congrArg decodeCommand (cmdField_setWidth cmd)
    rw [encode, decode_writeWord, hcmd, decodeCommand_of_reserved h]
  | wrWidthPx value | wrHeight value => exact decode_writeWord _ value
  | wrIgnored slot => exact (decode_writeWord slot 0).trans (congrArg _ (decodeWrite_of_ignored h 0))
  | rspOk | rspFail | reset | wireEscAt | wireEscD0 => rfl
  | wireGsV0 wb ht => exact decodeHdr_gsV0 wb ht
  | wireRasterData chunk => exact if_pos h

/-- Settles O31: the round trip. -/
theorem decodeOfEncodeIsTheInstruction : Obligations.DecodeOfEncodeIsTheInstruction :=
  fun _ h => decode_encode h

/-- Settles O34: each word is what the encoder writes for its operation. -/
theorem writtenWordsDecode : Obligations.WrittenWordsDecode :=
  ⟨decode_encode (i := .wrWidthPx 16) rfl, decode_encode (i := .wrHeight 300) rfl, decode_encode (i := .cmdStart) rfl,
    decode_encode (i := .cmdClear) rfl, decode_encode (i := .rdStatus) rfl, decode_encode (i := .rdBytesSent) rfl,
    decode_encode (i := .rspOk) rfl, decode_encode (i := .rspFail) rfl, decode_encode (i := .reset) rfl,
    decode_encode (i := .wireEscAt) rfl, decode_encode (i := .wireGsV0 5 280) rfl,
    decode_encode (i := .wireRasterData [0x81, 0x80, 0x00, 0x01]) rfl, decode_encode (i := .wireEscD0) rfl⟩

/-! ### What the decoder gives is well-formed (R72, R74, R81) -/

theorem decodeRead_wf (slot : BitVec 6) : (decodeRead slot).wf = true := by
  unfold decodeRead
  split
  case h_11 => exact decide_eq_true (by grind)
  all_goals rfl

theorem decodeCommand_wf (cmd : BitVec 4) : (decodeCommand cmd).wf = true := by
  unfold decodeCommand
  split
  case h_4 => exact decide_eq_true (by grind)
  all_goals rfl

theorem decodeWrite_wf (slot : BitVec 6) (wdata : BitVec 32) : (decodeWrite slot wdata).wf = true := by
  unfold decodeWrite
  split
  case h_1 => exact decodeCommand_wf _
  case h_4 h0 h2 h3 => exact (ignoredWriteSlot_iff slot).mpr ⟨h0, h2, h3⟩
  all_goals rfl

theorem decodeHb_wf (w : BitVec 41) : (decodeHb w).wf = true := by
  unfold decodeHb
  split
  · exact decodeWrite_wf _ _
  · exact decodeRead_wf _

/-- A header command has no operand check, so every header command is well-formed (R75). -/
theorem decodeHdr_wf {bytes : List Byte} {i : Instr} (h : decodeHdr bytes = .ok i) : i.wf = true := by
  unfold decodeHdr at h
  split at h
  · split at h
    · cases h; rfl
    · cases h
  · split at h
    · cases h; rfl
    · cases h
  · cases h

theorem decode_wf {raw : RawOp} {i : Instr} (h : decode raw = .ok i) : i.wf = true := by
  cases raw with
  | hb w => cases h; exact decodeHb_wf w
  | hdr bytes => exact decodeHdr_wf h
  | rsp ok =>
    simp only [decode] at h
    split at h
    · cases h; rfl
    · cases h; rfl
  | signal | trl =>
    simp only [decode] at h
    split at h
    · cases h; rfl
    · cases h
  | pay bytes =>
    simp only [decode] at h
    split at h
    · rename_i hlen
      cases h
      exact hlen
    · cases h

/-- Settles O33: the decoder's range, and the two ports on which it answers every word. -/
theorem decodedOperationsAreWellFormed : Obligations.DecodedOperationsAreWellFormed := by
  refine ⟨fun _ _ h => decode_wf h, fun w => ⟨_, rfl⟩, fun ok => ?_⟩
  simp only [decode]
  split
  · exact ⟨_, rfl⟩
  · exact ⟨_, rfl⟩

/-! ### The rows of the opcode table (R72) -/

/-- The bits of a host-bus word at the place of the command code (R73). -/
def hbCmd (w : BitVec 41) : BitVec 4 := cmdField (hbWdata w)

/-- A word of WE, a word slot and a command code, 0 elsewhere: the shape of a row's match and of its mask. -/
def hbPattern (we : BitVec 1) (slot : BitVec 6) (cmd : BitVec 4) : BitVec 41 :=
  hbTransaction we slot 0 (cmd.setWidth 32)

theorem hbTransaction_fields (w : BitVec 41) :
    hbTransaction (hbWe w) (hbSlot w) (w.extractLsb' 32 2) (hbWdata w) = w := by
  refine BitVec.eq_of_getLsbD_eq fun i hi => ?_
  simp only [hbTransaction_getLsbD, hbWe, hbSlot, hbWdata, BitVec.getLsbD_extractLsb']
  grind

/-- Masking a data word by bits of the command code masks its command code. -/
theorem and_setWidth_cmd (wdata : BitVec 32) (mask : BitVec 4) :
    wdata &&& mask.setWidth 32 = (cmdField wdata &&& mask).setWidth 32 := by
  refine BitVec.eq_of_getLsbD_eq fun i hi => ?_
  simp only [cmdField, BitVec.getLsbD_and, BitVec.getLsbD_setWidth, BitVec.getLsbD_extractLsb']
  grind

theorem and_hbPattern (w : BitVec 41) (we : BitVec 1) (slot : BitVec 6) (cmd : BitVec 4) :
    w &&& hbPattern we slot cmd = hbPattern (hbWe w &&& we) (hbSlot w &&& slot) (hbCmd w &&& cmd) := by
  have hlow : w.extractLsb' 32 2 &&& 0 = 0 := BitVec.and_zero
  conv_lhs => rw [← hbTransaction_fields w]
  rw [hbPattern, hbTransaction_and, and_setWidth_cmd, hlow]
  rfl

theorem hbPattern_inj {we we' : BitVec 1} {slot slot' : BitVec 6} {cmd cmd' : BitVec 4} :
    hbPattern we slot cmd = hbPattern we' slot' cmd' ↔ we = we' ∧ slot = slot' ∧ cmd = cmd' := by
  constructor
  · intro h
    have hwe := congrArg hbWe h
    have hslot := congrArg hbSlot h
    have hcmd := congrArg hbCmd h
    simp only [hbPattern, hbCmd, hbWe_hbTransaction, hbSlot_hbTransaction, hbWdata_hbTransaction,
      cmdField_setWidth] at hwe hslot hcmd
    exact ⟨hwe, hslot, hcmd⟩
  · rintro ⟨rfl, rfl, rfl⟩
    rfl

/-- Every row looks at WE, and otherwise at bits of the slot and of the command code alone. -/
theorem hbRows_pattern : ∀ row ∈ hbRows,
    row.2.2 = hbPattern 1 (hbSlot row.2.2) (hbCmd row.2.2) ∧
      row.2.1 = hbPattern (hbWe row.2.1) (hbSlot row.2.1) (hbCmd row.2.1) := by decide +kernel

/-- A word matches a row when its WE, slot and command code do. -/
theorem matches_row_iff (w : BitVec 41) {row : String × BitVec 41 × BitVec 41} (hrow : row ∈ hbRows) :
    w &&& row.2.2 = row.2.1 ↔ hbWe w = hbWe row.2.1 ∧ hbSlot w &&& hbSlot row.2.2 = hbSlot row.2.1 ∧
      hbCmd w &&& hbCmd row.2.2 = hbCmd row.2.1 := by
  obtain ⟨hmask, hmatch⟩ := hbRows_pattern row hrow
  have hwe : hbWe w &&& 1 = hbWe w := BitVec.and_allOnes
  conv_lhs => rw [hmask, hmatch, and_hbPattern, hbPattern_inj, hwe]

/-- The read rows name what decodeRead gives. -/
theorem decodeRead_follows_rows : ∀ row ∈ hbRows, hbWe row.2.1 = 0 →
    ∀ slot, slot &&& hbSlot row.2.2 = hbSlot row.2.1 → mnemonicOf (decodeRead slot) = row.1 := by decide +kernel

/-- The rows of slot 0 name what decodeCommand gives. -/
theorem decodeCommand_follows_rows : ∀ row ∈ hbRows, hbWe row.2.1 = 1 → 0 &&& hbSlot row.2.2 = hbSlot row.2.1 →
    ∀ cmd, cmd &&& hbCmd row.2.2 = hbCmd row.2.1 → mnemonicOf (decodeCommand cmd) = row.1 := by decide +kernel

/-- The other write rows name what decodeWrite gives, here for WDATA = 0. -/
theorem decodeWrite_follows_rows : ∀ row ∈ hbRows, hbWe row.2.1 = 1 → ∀ slot, slot ≠ 0 →
    slot &&& hbSlot row.2.2 = hbSlot row.2.1 → mnemonicOf (decodeWrite slot 0) = row.1 := by decide +kernel

/-- Outside CTRL, WDATA is an operand and does not choose the operation. -/
theorem mnemonicOf_decodeWrite {slot : BitVec 6} (h : slot ≠ 0) (wdata wdata' : BitVec 32) :
    mnemonicOf (decodeWrite slot wdata) = mnemonicOf (decodeWrite slot wdata') := by
  unfold decodeWrite
  split
  case h_1 h0 => exact absurd (BitVec.eq_of_toNat_eq h0) h
  all_goals rfl

theorem decodeHb_of_read {w : BitVec 41} (h : hbWe w = 0) : decodeHb w = decodeRead (hbSlot w) := by
  rw [decodeHb, h, if_neg (by decide)]

theorem decodeHb_of_write {w : BitVec 41} (h : hbWe w = 1) : decodeHb w = decodeWrite (hbSlot w) (hbWdata w) := by
  rw [decodeHb, if_pos h]

theorem decodeHb_of_command {w : BitVec 41} (h : hbWe w = 1) (hslot : hbSlot w = 0) :
    decodeHb w = decodeCommand (hbCmd w) := by
  rw [decodeHb_of_write h, hslot]
  rfl

/-- A word is decoded to the mnemonic of each row that it matches. -/
theorem mnemonicOf_decodeHb {w : BitVec 41} {row : String × BitVec 41 × BitVec 41} (hrow : row ∈ hbRows)
    (h : w &&& row.2.2 = row.2.1) : mnemonicOf (decodeHb w) = row.1 := by
  obtain ⟨hwe, hslot, hcmd⟩ := (matches_row_iff w hrow).mp h
  rcases BitVec.eq_zero_or_eq_one (hbWe w) with hread | hwrite
  · rw [decodeHb_of_read hread]
    exact decodeRead_follows_rows row hrow (hwe.symm.trans hread) _ hslot
  · have hrowWrite := hwe.symm.trans hwrite
    by_cases h0 : hbSlot w = 0
    · rw [decodeHb_of_command hwrite h0]
      rw [h0] at hslot
      exact decodeCommand_follows_rows row hrow hrowWrite hslot _ hcmd
    · rw [decodeHb_of_write hwrite, mnemonicOf_decodeWrite h0 _ 0]
      exact decodeWrite_follows_rows row hrow hrowWrite _ h0 hslot

/-- The rows with an empty mask at the command code cover every read, and every write outside CTRL. -/
theorem slot_is_covered : ∀ we slot, we = 0 ∨ slot ≠ 0 → ∃ row ∈ hbRows,
    we = hbWe row.2.1 ∧ slot &&& hbSlot row.2.2 = hbSlot row.2.1 ∧ hbCmd row.2.2 = 0 ∧ hbCmd row.2.1 = 0 := by
  decide +kernel

/-- The rows of CTRL cover every command code (R74). -/
theorem command_is_covered : ∀ cmd, ∃ row ∈ hbRows,
    1 = hbWe row.2.1 ∧ 0 &&& hbSlot row.2.2 = hbSlot row.2.1 ∧ cmd &&& hbCmd row.2.2 = hbCmd row.2.1 := by
  decide +kernel

theorem exists_row_matches (w : BitVec 41) : ∃ row ∈ hbRows, w &&& row.2.2 = row.2.1 := by
  by_cases h : hbWe w = 0 ∨ hbSlot w ≠ 0
  · obtain ⟨row, hrow, hwe, hslot, hmask, hmatch⟩ := slot_is_covered _ _ h
    refine ⟨row, hrow, (matches_row_iff w hrow).mpr ⟨hwe, hslot, ?_⟩⟩
    rw [hmask, hmatch]
    exact BitVec.and_zero
  · obtain ⟨hread, hctrl⟩ := not_or.mp h
    have hwrite : hbWe w = 1 := (BitVec.eq_zero_or_eq_one _).resolve_left hread
    have hslot0 : hbSlot w = 0 := not_not.mp hctrl
    obtain ⟨row, hrow, hwe, hslot, hcmd⟩ := command_is_covered (hbCmd w)
    exact ⟨row, hrow, (matches_row_iff w hrow).mpr ⟨hwrite.trans hwe, hslot0 ▸ hslot, hcmd⟩⟩

/-- Settles O32: a row's mnemonic is the decoder's, and the rows cover every word. -/
theorem decoderFollowsTheOpcodeTable : Obligations.DecoderFollowsTheOpcodeTable :=
  ⟨fun _ _ hrow h => mnemonicOf_decodeHb hrow h, exists_row_matches⟩

end Sys2Proof

namespace Sys2Proof.Machine

open Sys2Proof.Claims

/-! ### The reader of a frame (R79, R122) -/

theorem drop_headerLen_frame (wb ht : BitVec 16) (bm : List Byte) :
    (frame wb ht bm).drop Config.headerLen = bm ++ trl := rfl

/-- Where the header is the frame's, the reader takes WB × HT payload bytes and wants the trailer behind them. -/
theorem readFrame_frame {wb ht : BitVec 16} {bm : List Byte} (h : bm.length = wb.toNat * ht.toNat) :
    readFrame (frame wb ht bm) = some (wb, ht, bm) := by
  have hopen : decodeHdr ((frame wb ht bm).take 2) = .ok .wireEscAt := decodeHdr_escAt
  have hsize : decodeHdr (((frame wb ht bm).drop 2).take 8) = .ok (.wireGsV0 wb ht) := decodeHdr_gsV0 wb ht
  have hpayload : wb.toNat * ht.toNat ≤ ((frame wb ht bm).drop Config.headerLen).length ∧
      ((frame wb ht bm).drop Config.headerLen).drop (wb.toNat * ht.toNat) = trl := by
    rw [drop_headerLen_frame, List.length_append]
    exact ⟨by omega, List.drop_left' h⟩
  simp only [readFrame, hopen, hsize]
  rw [if_pos hpayload, drop_headerLen_frame, List.take_left' h]

/-- Settles O30: the frame's length, and its reader. -/
theorem frameIsReadFromItsHeader : Obligations.FrameIsReadFromItsHeader :=
  fun wb ht bm h => ⟨frame_length wb ht bm, readFrame_frame h⟩

/-! ### The issue step by STATE (R120, R121, R140, R141) -/

/-- A byte of a size field is the remainder and the quotient by 256 (R76). -/
theorem sizeByte_eq (v : BitVec 16) :
    lowByte v = BitVec.ofNat 8 (v.toNat % 256) ∧ highByte v = BitVec.ofNat 8 (v.toNat / 256) := by
  constructor
  · apply BitVec.eq_of_toNat_eq
    simp [lowByte, BitVec.extractLsb'_toNat]
  · apply BitVec.eq_of_toNat_eq
    simp [highByte, BitVec.extractLsb'_toNat, Nat.shiftRight_eq_div_pow]

theorem hdr_eq_headerBytes (wb ht : BitVec 16) : hdr wb ht = headerBytes wb.toNat ht.toNat := by
  obtain ⟨hwl, hwh⟩ := sizeByte_eq wb
  obtain ⟨hhl, hhh⟩ := sizeByte_eq ht
  rw [headerBytes, ← hwl, ← hwh, ← hhl, ← hhh]
  rfl

section issue
variable {s : State}

theorem issueEnabled_of_isBusy (hb : isBusy s = true) (hi : s.inflight = false) : issueEnabled s = true :=
  (issueEnabled_iff s).mpr ⟨hb, hi⟩

theorem issueStep_sendHdr (hq : s.seqState = .sendHdr) (hi : s.inflight = false) :
    issueStep s = .next (issued s 10 (headerBytes (geomWb s).toNat (geomHt s).toNat)) := by
  rw [← hdr_eq_headerBytes]
  exact issueStep_of_enabled (issueEnabled_of_isBusy ((isBusy_iff s).mpr (.inl hq)) hi)
    (by simp only [curLen, hq]; rfl) (by simp only [curBytes, hq])

theorem curLen_sendChunk (hq : s.seqState = .sendChunk) (hc : s.cursor.toNat < s.payloadLen.toNat) :
    curLen s = some (BitVec.ofNat 8 (chunkBytes s)) := by
  simp only [curLen, hq, hc, if_true]
  rfl

/-- A chunk within BM is present: its length fits LEN, and its bytes stand at CURSOR (R53, R140). -/
theorem curBytes_sendChunk (hq : s.seqState = .sendChunk) (hc : s.cursor.toNat < s.payloadLen.toNat)
    (hbm : s.cursor.toNat + chunkBytes s ≤ s.bm.length) :
    curBytes s = some ((s.bm.drop s.cursor.toNat).take (chunkBytes s)) := by
  have hlen : (BitVec.ofNat 8 (chunkBytes s)).toNat = chunkBytes s := by
    rw [BitVec.toNat_ofNat, chunkBytes]
    omega
  simp only [curBytes, hq, curLen_sendChunk hq hc, hlen]
  rw [if_pos hbm, bmSlice]

theorem issueStep_sendChunk (hq : s.seqState = .sendChunk) (hi : s.inflight = false)
    (hc : s.cursor.toNat < s.payloadLen.toNat) (hbm : s.cursor.toNat + chunkBytes s ≤ s.bm.length) :
    issueStep s = .next (issued s (BitVec.ofNat 8 (chunkBytes s)) ((s.bm.drop s.cursor.toNat).take (chunkBytes s))) :=
  issueStep_of_enabled (issueEnabled_of_isBusy ((isBusy_iff s).mpr (.inr (.inl hq))) hi) (curLen_sendChunk hq hc)
    (curBytes_sendChunk hq hc hbm)

theorem issueStep_sendTrl (hq : s.seqState = .sendTrl) (hi : s.inflight = false) :
    issueStep s = .next (issued s 3 [0x1B, 0x64, 0x00]) :=
  issueStep_of_enabled (issueEnabled_of_isBusy ((isBusy_iff s).mpr (.inr (.inr hq))) hi)
    (by simp only [curLen, hq]; rfl) (by simp only [curBytes, hq]; rfl)

theorem issueStep_of_inflight (hi : s.inflight = true) : issueStep s = .next s :=
  issueStep_of_disabled (by simp [issueEnabled, hi])

/-! ### Wire commands (R75, R141, log 5) -/

/-- A wire command whose guard fails, or that meets a write in flight, changes nothing. -/
theorem guarded_issue_of_not_due {p : Prop} [Decidable p] (h : ¬(p ∧ s.inflight = false)) :
    (if p then issueStep s else .next s) = .next s := by
  split
  · rename_i hp
    exact issueStep_of_inflight (Bool.of_not_eq_false fun hi => h ⟨hp, hi⟩)
  · rfl

end issue

/-- Settles O16: each guard holds, and the issue step presents the write of its STATE. -/
theorem wireCommandsPresentTheirWrite : Obligations.WireCommandsPresentTheirWrite := by
  refine fun s hi => ⟨fun hq => ⟨?_, ?_⟩, fun hq hc hbm => ?_, fun hq => ?_⟩
  · exact (if_pos hq).trans (issueStep_sendHdr hq hi)
  · exact (if_pos ⟨hq, rfl, rfl⟩).trans (issueStep_sendHdr hq hi)
  · exact (if_pos ⟨hq, .inr (curBytes_sendChunk hq hc hbm)⟩).trans (issueStep_sendChunk hq hi hc hbm)
  · exact (if_pos hq).trans (issueStep_sendTrl hq hi)

/-- Settles O17: in each clause the guard fails or a write is in flight. -/
theorem wireCommandNotDueChangesNothing : Obligations.WireCommandNotDueChangesNothing := by
  refine fun s => ⟨fun h => ?_, fun wb ht h => ?_, fun bytes h => ?_, fun bytes due hdue hne => ?_, fun h => ?_⟩
  · exact guarded_issue_of_not_due h
  · exact guarded_issue_of_not_due fun ⟨⟨hq, hwb, hht⟩, hi⟩ => h ⟨hq, hi, hwb, hht⟩
  · exact guarded_issue_of_not_due fun ⟨⟨hq, _⟩, hi⟩ => h ⟨hq, hi⟩
  · refine guarded_issue_of_not_due fun ⟨⟨_, hbytes⟩, _⟩ => ?_
    rcases hbytes with hnone | hsome
    · cases hdue.symm.trans hnone
    · exact hne (Option.some.inj (hdue.symm.trans hsome))
  · exact guarded_issue_of_not_due h

/-! ### Progress events (R83) -/

theorem startJob_progress (s : State) : (startJob s).progress = s.progress := by
  rcases startJob_cases s with ⟨-, he⟩ | ⟨-, -, he⟩ | ⟨-, -, he⟩ <;> rw [he] <;> rfl

/-- Only a confirmation emits a progress event. -/
theorem Effect.progress {s t : State} {c : Cause} (he : Effect s c t) :
    t.progress = s.progress ∨ (c = .op .rspOk ∧ s.inflight = true) := by
  cases he with
  | confirm m hi hm => exact .inr ⟨rfl, hi⟩
  | start hb => exact .inl (startJob_progress s)
  | same | read | width | height | clear | failure | reset | issue | pixel | cycle => exact .inl rfl

/-- The event that a confirmation emits is the new BYTES_SENT (R83, R142). -/
theorem execRspOk_progress {s t : State} (hi : s.inflight = true) (h : execRspOk s = .next t) :
    t.progress = s.progress ++ [t.bytesSent] := by
  rcases execRspOk_next h with ⟨hi', -⟩ | ⟨-, m, -, rfl⟩
  · cases hi.symm.trans hi'
  · show (confirmResult m s).progress = s.progress ++ [(confirmResult m s).bytesSent]
    rw [confirmResult_progress, confirmResult_bytesSent]

/-- Settles O20: the confirmation's event, and no other effect emits one. -/
theorem progressOncePerConfirmation : Obligations.ProgressOncePerConfirmation := by
  refine fun s t hstep => ⟨fun ⟨⟨raw, rest, ha, hd⟩, hi⟩ => ?_, fun hno => ?_⟩
  · rw [step_of_op ha hd] at hstep
    exact execRspOk_progress (s := { s with agenda := rest }) hi hstep
  · obtain ⟨rest, c, hcause, he⟩ := step_effect hstep
    rcases he.progress with hsame | ⟨rfl, hi⟩
    · exact hsame
    · exact absurd ⟨nextIs_of_caused hcause, hi⟩ hno

end Sys2Proof.Machine
end

section
/-! Proofs for 40_thresholder_packer.md: the ink threshold over every sample, the place of each packed byte in the bitmap,
and the round trip through unpack (R100 to R104, R107). -/

namespace Sys2Proof.Machine

/-- Settles O22: the 10-bit sum is the exact one, and alpha is no part of it. -/
theorem inkIsTheExactZeroSum : Obligations.InkIsTheExactZeroSum :=
  fun r g b a => ink_eq_true_iff ⟨r, g, b, a⟩

/-! ### The place of a byte in the bitmap (R103) -/

/-- One more row goes straight after the rows above it, with no padding. -/
theorem encodeImage_succ (pm : Memory) (draw w h : Nat) :
    encodeImage pm draw w (h + 1) = encodeImage pm draw w h ++ encodeRow pm draw w h := by
  simp [encodeImage, List.range_succ]

theorem encodeRow_getElem? (pm : Memory) (draw w r : Nat) {c : Nat} (hc : c < w / 8) :
    (encodeRow pm draw w r)[c]? = some (pack8 pm draw w r c) := by
  simp [encodeRow, Config.pixelsPerByte, List.getElem?_range hc]

/-- Byte r × WB + c of the bitmap is pack8(r, c): the last row follows the h × WB bytes of the rows above it, and every
other row keeps its place. -/
theorem encodeImage_getElem? (pm : Memory) (draw w : Nat) {h r c : Nat} (hr : r < h) (hc : c < w / 8) :
    (encodeImage pm draw w h)[r * (w / 8) + c]? = some (pack8 pm draw w r c) := by
  induction h with
  | zero => exact absurd hr (Nat.not_lt_zero r)
  | succ h ih =>
    have hlen : (encodeImage pm draw w h).length = h * (w / 8) := by rw [encodeImage_length, Nat.mul_comm]
    rw [encodeImage_succ]
    rcases Nat.lt_succ_iff_lt_or_eq.mp hr with above | rfl
    · have inside : r * (w / 8) + c < h * (w / 8) :=
        calc r * (w / 8) + c < (r + 1) * (w / 8) := by rw [Nat.succ_mul]; omega
          _ ≤ h * (w / 8) := Nat.mul_le_mul_right _ above
      rw [List.getElem?_append_left (hlen ▸ inside), ih above]
    · rw [List.getElem?_append_right (hlen ▸ Nat.le_add_right _ _), hlen, Nat.add_sub_cancel_left,
        encodeRow_getElem? pm draw w r hc]

/-- Settles O24: the length of the rows together, and the place of each of their bytes. -/
theorem encodeIsRowMajor : Obligations.EncodeIsRowMajor :=
  fun pm draw w h => ⟨encodeImage_length pm draw w h, fun _ _ hr hc => encodeImage_getElem? pm draw w hr hc⟩

/-! ### The round trip (R107) -/

/-- Settles O25: pixel x of a row is bit 7 - x % 8 of byte x / 8, since W has no pixel beyond its last whole byte. -/
theorem unpackRecoversInk : Obligations.UnpackRecoversInk := by
  intro pm draw w h r x hw hr hx
  have hc : x / 8 < w / 8 := by omega
  have hk : x % 8 < 8 := Nat.mod_lt x (by decide)
  rw [unpackBit, Config.pixelsPerByte, encodeImage_getElem? pm draw w hr hc, Option.map_some,
    pack8_getLsbD pm draw w r (x / 8) hk, Nat.add_assoc, Nat.div_add_mod]

end Sys2Proof.Machine
end

section
/-! Proofs for 41_framer.md: the header and the trailer (R120, R121), the chunks (R123 to R125), the schedule and its
cumulative counts (R122, R126, R127), and the run of a job whose writes are all confirmed (R147, R150, R152). -/

namespace Sys2Proof.Machine

open Sys2Proof.Claims

/-! ### Header, trailer and chunks (R120 to R125) -/

/-- Settles O26: the header by its size bytes, and the trailer as it is. -/
theorem headerAndTrailerBytes : Obligations.HeaderAndTrailerBytes :=
  ⟨hdr_eq_headerBytes, rfl⟩

/-- The n chunks join to the bitmap: they reach up to byte 128 n, which is not before its end. -/
theorem flatMap_chunk_all (bm : List Byte) : (List.range ((bm.length + 127) / 128)).flatMap (chunk bm bm.length) = bm := by
  rw [flatMap_chunk_range, List.take_of_length_le (by omega)]

/-- A chunk is non-empty and at most 128 bytes long, and each but the last is full (R124, R125). -/
theorem chunk_length_bounds {bm : List Byte} {k : Nat} (hk : k < (bm.length + 127) / 128) :
    1 ≤ (chunk bm bm.length k).length ∧ (chunk bm bm.length k).length ≤ 128 ∧
      (k + 1 < (bm.length + 127) / 128 → (chunk bm bm.length k).length = 128) := by
  rw [chunk_length rfl]
  omega

/-- Settles O27: the count by arithmetic, the chunks by their definition and their lengths. -/
theorem chunksPartitionTheBitmap : Obligations.ChunksPartitionTheBitmap := by
  intro bm hpos hmax
  refine ⟨chunkCount_eq _, by omega, by omega, flatMap_chunk_all bm, fun k hk => ?_, ?_⟩
  · exact ⟨chunk_eq .., chunk_length rfl k, chunk_length_bounds hk⟩
  · rw [chunk_length rfl]
    omega

/-! ### The schedule and its cumulative counts (R122, R126, R127) -/

/-- Settles O28: each position of the schedule, and its concatenation. -/
theorem scheduleSpellsTheFrame : Obligations.ScheduleSpellsTheFrame :=
  fun wb ht bm _ => ⟨sched_length .., sched_getElem?_zero .., fun _ hk => sched_getElem?_chunk wb ht bm hk,
    sched_getElem?_trailer .., sched_flatten wb ht bm, frame_length wb ht bm⟩

/-- Up to the last chunk, acc counts the header and the chunks' bytes. -/
theorem acc_of_le {len j : Nat} (hj : j ≤ chunkCount len) : acc len j = 10 + min (128 * j) len := if_pos hj

/-- The trailer's confirmation completes the 13 + L bytes of the frame. -/
theorem acc_trailer (len : Nat) : acc len (chunkCount len + 1) = 13 + len := by
  rw [acc, if_neg (Nat.not_succ_le_self _), Config.headerLen, Config.trailerLen]
  omega

/-- Settles O29: the sum over the schedule's first j + 1 writes, and the three ranges of acc. -/
theorem cumulativeCountsAddTheWrites : Obligations.CumulativeCountsAddTheWrites := by
  intro wb ht bm j _ hj
  have hwrites : j + 1 ≤ chunkCount bm.length + 2 := Nat.succ_le_succ hj
  refine ⟨sum_take_sched_length rfl hwrites, ?_, fun _ hjn => acc_of_le hjn, acc_trailer bm.length⟩
  rw [acc_of_le (Nat.zero_le _), Nat.mul_zero, Nat.zero_min]

/-! ### One write issued and confirmed (R141, R142) -/

@[simp] theorem confirmResult_agenda (m : BitVec 8) (s : State) : (confirmResult m s).agenda = s.agenda := by
  rw [confirmResult_frame]

theorem exec_rspOk_of_inflight {s : State} {m : BitVec 8} (hi : s.inflight = true) (hm : curLen s = some m) :
    exec .rspOk s = .next (confirmResult m s) := by
  simp [exec, execRspOk, hi, hm, confirmResult]

theorem core_run_succ {M : Host.Core} {s t : M.State} (h : M.step s = .next t) (k : Nat) :
    M.run (k + 1) s = M.run k t := by
  rw [Host.Core.run, h]

theorem run_of_step {s t : State} (h : step s = .next t) (k : Nat) :
    Host.Core.run core (k + 1) s = Host.Core.run core k t :=
  core_run_succ (M := core) (s := s) (t := t) h k

/-- A busy sound state has a current write to issue, as the model's helpers give it (R140). -/
theorem Sound.exists_current_request {s : State} (h : Sound s) (hb : isBusy s = true) :
    ∃ m bytes, curLen s = some m ∧ curBytes s = some bytes ∧ (jobRequests s)[writesConfirmed s]? = some ⟨m, bytes⟩ := by
  obtain ⟨_, -, -, hm, -⟩ := current_write h.session hb (h.bitmap (holdsJob_of_isBusy hb))
  obtain ⟨bytes, -, hbytes, hreq, -⟩ := h.current_request hb hm
  exact ⟨_, bytes, hm, hbytes, hreq⟩

/-- The state after the current write was issued and its confirmation was taken. -/
def roundResult (m : BitVec 8) (bytes : List Byte) (s : State) : State := confirmResult m (issueResult m bytes s)

/-- A round is two steps: the issue step, then the confirmation. -/
theorem run_round {s : State} {m : BitVec 8} {bytes : List Byte} {rest : List Turn} (he : issueEnabled s = true)
    (hm : curLen s = some m) (hbytes : curBytes s = some bytes) (ha : s.agenda = .block :: .op (.rsp 1) :: rest)
    (k : Nat) :
    Host.Core.run core (k + 2) s = Host.Core.run core k (roundResult m bytes { s with agenda := rest }) := by
  have hissue : step s = .next (issueResult m bytes { s with agenda := .op (.rsp 1) :: rest }) :=
    (step_of_block ha).trans (issueStep_of_enabled he hm hbytes)
  have hconfirm : step (issueResult m bytes { s with agenda := .op (.rsp 1) :: rest }) =
      .next (roundResult m bytes { s with agenda := rest }) :=
    (step_of_op (i := .rspOk) rfl rfl).trans
      (exec_rspOk_of_inflight (s := issueResult m bytes { s with agenda := rest }) rfl hm)
  rw [run_of_step hissue, run_of_step hconfirm]

/-! ### The states of a job whose writes are all confirmed (R144, R147, R152) -/

/-- A job that did not fail is busy until all n + 2 writes are confirmed (R37, R147). -/
theorem SessionRow.isBusy_of_writes_left {s : State} (hrow : SessionRow s)
    (hjob : isBusy s = true ∨ s.seqState = .done) (hleft : writesConfirmed s < chunkCount s.payloadLen.toNat + 2) :
    isBusy s = true := by
  refine hjob.resolve_right fun hq => ?_
  obtain ⟨⟨-, hidx, -⟩, -⟩ := (sessionRow_done hq).mp hrow
  rw [writesConfirmed_done hq] at hleft
  omega

theorem SessionRow.writesConfirmed_lt_of_isBusy {s : State} (hrow : SessionRow s) (hb : isBusy s = true) :
    writesConfirmed s < chunkCount s.payloadLen.toNat + 2 := by
  rcases (isBusy_iff s).mp hb with hq | hq | hq
  · rw [writesConfirmed_sendHdr hq]; omega
  · obtain ⟨⟨-, hidx, -⟩, -⟩ := (sessionRow_sendChunk hq).mp hrow
    rw [writesConfirmed_sendChunk hq]; omega
  · obtain ⟨⟨-, hidx, -⟩, -⟩ := (sessionRow_sendTrl hq).mp hrow
    rw [writesConfirmed_sendTrl hq]; omega

/-- A confirmation leads on through the job or ends it (R144). -/
theorem confirmResult_isBusy_or_done {s : State} (hb : isBusy s = true) (m : BitVec 8) :
    isBusy (confirmResult m s) = true ∨ (confirmResult m s).seqState = .done := by
  rw [isBusy_iff]
  rcases (isBusy_iff s).mp hb with hq | hq | hq
  · exact .inl (.inr (.inl (confirmResult_sendHdr hq m).1))
  · rw [(confirmResult_sendChunk hq m).1]
    split <;> simp
  · exact .inr (confirmResult_sendTrl hq m).1

/-- After k + 1 confirmed writes BYTES_SENT holds acc(k). -/
theorem SessionRow.bytesSent_eq_acc {s : State} (hrow : SessionRow s) {k : Nat} (hk : writesConfirmed s = k + 1) :
    s.bytesSent = BitVec.ofNat 32 (acc s.payloadLen.toNat k) := by
  have hsent := hrow.bytesSent_eq
  rw [hk, bytesConfirmed] at hsent
  rw [← hsent, BitVec.ofNat_toNat, BitVec.setWidth_eq]

theorem accPrefix_succ (s : State) (k : Nat) :
    accPrefix s (k + 1) = accPrefix s k ++ [BitVec.ofNat 32 (acc s.payloadLen.toNat k)] := by
  simp [accPrefix, List.range_succ]

/-- From s, at the start of its job, the first k writes have been issued and confirmed, and t is the state reached, with
`rest` still on the agenda. -/
structure Confirmed (s : State) (k : Nat) (rest : List Turn) (t : State) : Prop where
  sound : Sound t
  job : isBusy t = true ∨ t.seqState = .done
  idlePort : t.inflight = false
  count : writesConfirmed t = k
  agenda : t.agenda = rest
  payload : t.payloadLen = s.payloadLen
  requests : jobRequests t = jobRequests s
  stream : t.cs = s.cs ++ (jobRequests s).take k
  events : t.progress = s.progress ++ accPrefix s k

theorem Confirmed.start {s : State} {rest : List Turn} (h : Sound s) (hq : s.seqState = .sendHdr)
    (hi : s.inflight = false) (ha : s.agenda = rest) : Confirmed s 0 rest s where
  sound := h
  job := .inl ((isBusy_iff s).mpr (.inl hq))
  idlePort := hi
  count := writesConfirmed_sendHdr hq
  agenda := ha
  payload := rfl
  requests := rfl
  stream := by simp
  events := by simp [accPrefix]

theorem Confirmed.with_agenda {s t : State} {k : Nat} {a : List Turn} (h : Confirmed s k a t) (rest : List Turn) :
    Confirmed s k rest { t with agenda := rest } :=
  { h with sound := h.sound.agenda rest, agenda := rfl }

/-- A round confirms one more write of the schedule. -/
theorem Confirmed.round {s t : State} {k : Nat} {rest : List Turn} {m : BitVec 8} {bytes : List Byte}
    (h : Confirmed s k rest t) (he : issueEnabled t = true) (hm : curLen t = some m) (hbytes : curBytes t = some bytes)
    (hreq : (jobRequests t)[writesConfirmed t]? = some ⟨m, bytes⟩) :
    Confirmed s (k + 1) rest (roundResult m bytes t) := by
  have hissued := issueResult_sound h.sound he hm hbytes
  obtain ⟨hrow, hcount⟩ : SessionRow (roundResult m bytes t) ∧ writesConfirmed (roundResult m bytes t) = k + 1 :=
    h.count ▸ confirmResult_session hissued.session hm
  have hpay : (roundResult m bytes t).payloadLen = s.payloadLen := (confirmResult_payloadLen ..).trans h.payload
  refine ⟨confirmResult_sound hissued rfl hm, ?_, confirmResult_inflight .., hcount,
    (confirmResult_agenda ..).trans h.agenda, hpay, (confirmResult_jobRequests ..).trans h.requests, ?_, ?_⟩
  · exact confirmResult_isBusy_or_done (hissued.session.isBusy_of_inflight rfl) m
  · rw [h.requests, h.count] at hreq
    exact (confirmResult_cs ..).trans (append_take_succ h.stream hreq)
  · calc (roundResult m bytes t).progress
      _ = t.progress ++ [(roundResult m bytes t).bytesSent] := by
        rw [roundResult, confirmResult_progress, confirmResult_bytesSent]
        rfl
      _ = s.progress ++ accPrefix s (k + 1) := by
        rw [h.events, hrow.bytesSent_eq_acc hcount, hpay, accPrefix_succ, List.append_assoc]

/-! ### The run of the schedule (R127, R147, R152) -/

/-- The agenda of j rounds: an issue step and its confirmation, j times (log 1). -/
def rounds (j : Nat) : List Turn := (List.replicate j [Turn.block, Turn.op (.rsp 1)]).flatten

/-- With j writes of the schedule left, j rounds confirm them all. -/
theorem Confirmed.run {s t : State} {k j : Nat} {rest : List Turn} (h : Confirmed s k (rounds j ++ rest) t)
    (hj : k + j = chunkCount s.payloadLen.toNat + 2) :
    ∃ u, Host.Core.run core (2 * j) t = .next u ∧ Confirmed s (chunkCount s.payloadLen.toNat + 2) rest u := by
  induction j generalizing k t with
  | zero =>
    obtain rfl : k = chunkCount s.payloadLen.toNat + 2 := hj
    exact ⟨t, rfl, h⟩
  | succ j ih =>
    have hleft : writesConfirmed t < chunkCount t.payloadLen.toNat + 2 := by rw [h.count, h.payload]; omega
    have hb := h.sound.session.isBusy_of_writes_left h.job hleft
    have he := issueEnabled_of_isBusy hb h.idlePort
    obtain ⟨m, bytes, hm, hbytes, hreq⟩ := h.sound.exists_current_request hb
    obtain ⟨u, hrun, hu⟩ := ih ((h.with_agenda _).round he hm hbytes hreq) (by omega)
    exact ⟨u, (run_round he hm hbytes h.agenda (2 * j)).trans hrun, hu⟩

/-- With all n + 2 writes confirmed the job is in DONE. -/
theorem Confirmed.done {s t : State} {rest : List Turn}
    (h : Confirmed s (chunkCount s.payloadLen.toNat + 2) rest t) : t.seqState = .done := by
  refine h.job.resolve_left fun hb => ?_
  have hleft := h.sound.session.writesConfirmed_lt_of_isBusy hb
  rw [h.count, h.payload] at hleft
  exact Nat.lt_irrefl _ hleft

theorem Confirmed.bytesSent {s t : State} {rest : List Turn}
    (h : Confirmed s (chunkCount s.payloadLen.toNat + 2) rest t) : t.bytesSent.toNat = 13 + s.payloadLen.toNat := by
  rw [h.sound.session.bytesSent_eq, h.count, h.payload, bytesConfirmed, acc_trailer]

/-- Settles O55: the n + 2 rounds from the start of the job, and what the state after them holds. -/
theorem confirmedJobRunsItsSchedule : Obligations.ConfirmedJobRunsItsSchedule := by
  intro s rest h hq hi ha
  obtain ⟨t, hrun, ht⟩ := (Confirmed.start h hq hi ha).run (Nat.zero_add _)
  have hall := ht.stream
  rw [List.take_of_length_le (jobRequests_length s).le] at hall
  exact ⟨t, hrun, ht.done, ht.agenda, ht.bytesSent, hall, ht.events⟩

end Sys2Proof.Machine
end

section
/-! Proofs for 42_sequencer_arbiter.md: the two channel responses (R142 to R144, R149), the block's turn (R141), and what
every step keeps of the channel stream, INFLIGHT and a busy job (R145, R146, R151). -/

namespace Sys2Proof.Machine

open Sys2Proof.Claims

/-! ### A step of a busy job (R141, R145, R146, R151) -/

/-- A step either leaves the channel stream as it was or is the issue step, which sets INFLIGHT (R141, R145). -/
theorem Effect.cs_or_issue {s t : State} {c : Cause} (he : Effect s c t) :
    t.cs = s.cs ∨ (issueEnabled s = true ∧ ∃ m bytes, t = issueResult m bytes s) := by
  cases he with
  | issue c m bytes hen hm hb => exact .inr ⟨hen, m, bytes, rfl⟩
  | start hb => exact .inl (startJob_cs s)
  | confirm m hi hm => exact .inl (confirmResult_cs m s)
  | same | read | width | height | clear | failure | reset | pixel | cycle => exact .inl rfl

theorem jobEnd_of_isBusy {s : State} (hb : isBusy s = true) : jobEnd s = false := by
  rcases (isBusy_iff s).mp hb with hq | hq | hq <;> rw [jobEnd, hq] <;> rfl

/-- A channel response or reset: what can end a busy job or take a write back from the port (R145, R151). -/
def ResponseOrReset (c : Cause) : Prop := c = .op .rspOk ∨ c = .op .rspFail ∨ c = .op .reset

theorem nextIs_of_responseOrReset {s : State} {rest : List Turn} {c : Cause} (hcause : Caused s rest c)
    (hc : ResponseOrReset c) : NextIs s .rspOk ∨ NextIs s .rspFail ∨ NextIs s .reset := by
  rcases hc with rfl | rfl | rfl
  · exact .inl (nextIs_of_caused hcause)
  · exact .inr (.inl (nextIs_of_caused hcause))
  · exact .inr (.inr (nextIs_of_caused hcause))

/-- Every other step of a busy job leaves STATE as it is and a write in flight outstanding: START and CLEAR have no effect
while busy (R174, R175). -/
theorem Effect.keeps_busy_job {s t : State} {c : Cause} (he : Effect s c t) (hb : isBusy s = true) :
    ResponseOrReset c ∨ (t.seqState = s.seqState ∧ (s.inflight = true → t.inflight = true)) := by
  cases he with
  | confirm => exact .inl (.inl rfl)
  | failure => exact .inl (.inr (.inl rfl))
  | reset => exact .inl (.inr (.inr rfl))
  | start hidle => cases hb.symm.trans hidle
  | clear hend => cases (jobEnd_of_isBusy hb).symm.trans hend
  | issue => exact .inr ⟨rfl, fun _ => rfl⟩
  | same | read | width | height | pixel | cycle => exact .inr ⟨rfl, id⟩

/-- Settles O18: only the issue step presents a request, and in a sound state a write is outstanding only in a busy job. -/
theorem oneWriteOutstanding : Obligations.OneWriteOutstanding := by
  intro s t hstep
  obtain ⟨rest, c, hcause, he⟩ := step_effect hstep
  constructor
  · rcases he.cs_or_issue with hcs | ⟨hen, m, bytes, rfl⟩
    · exact .inl hcs
    · exact .inr ⟨((issueEnabled_iff _).mp hen).2, rfl, ⟨m, bytes⟩, rfl⟩
  · intro hsound hi hi'
    rcases he.keeps_busy_job (hsound.session.isBusy_of_inflight hi) with hc | ⟨-, hkeep⟩
    · exact nextIs_of_responseOrReset hcause hc
    · cases hi'.symm.trans (hkeep hi)

/-- Settles O43: every other step of a busy job keeps STATE. -/
theorem busyJobEndsOnlyByResponseOrReset : Obligations.BusyJobEndsOnlyByResponseOrReset := by
  intro s t hb hstep hb'
  obtain ⟨rest, c, hcause, he⟩ := step_effect hstep
  rcases he.keeps_busy_job hb with hc | ⟨hq, -⟩
  · exact nextIs_of_responseOrReset hcause hc
  · rw [isBusy, hq] at hb'
    cases hb'.symm.trans hb

/-- Settles O46: the issue step is enabled only in a busy job. -/
theorem noWriteOutsideABusyJob : Obligations.NoWriteOutsideABusyJob := by
  intro s t hb hstep
  obtain ⟨rest, c, -, he⟩ := step_effect hstep
  refine he.cs.resolve_right fun ⟨hen, _⟩ => ?_
  cases hb.symm.trans ((issueEnabled_iff _).mp hen).1

/-! ### The block's turn (R141, log 2) -/

theorem issueEnabled_eq_false_iff (s : State) : issueEnabled s = false ↔ isBusy s = false ∨ s.inflight = true := by
  rw [issueEnabled, Bool.and_eq_false_iff, Bool.not_eq_false']

/-- Settles O15: the block's turn is the issue step, disabled or presenting the write of its STATE. -/
theorem blockIssuesTheCurrentWrite : Obligations.BlockIssuesTheCurrentWrite := by
  intro s rest ha
  rw [step_of_block ha]
  refine ⟨fun hoff => ?_, fun hi => ⟨fun hq => ?_, fun hq hc hbm => ?_, fun hq => ?_⟩⟩
  · exact issueStep_of_disabled ((issueEnabled_eq_false_iff _).mpr hoff)
  · exact issueStep_sendHdr (s := { s with agenda := rest }) hq hi
  · exact issueStep_sendChunk (s := { s with agenda := rest }) hq hi hc hbm
  · exact issueStep_sendTrl (s := { s with agenda := rest }) hq hi

/-! ### A confirmation (R142, R144) -/

/-- A confirmation with its addend and the sequencer's move named: it counts the write, emits the count and records the
outstanding request, and changes nothing else. -/
theorem confirmResult_eq {s : State} {m : BitVec 8} {n cursor chunkIdx : Word} {q : SeqState} (hi : s.inflight = true)
    (hn : m.setWidth 32 = n)
    (hmove : (confirmResult m s).seqState = q ∧ (confirmResult m s).cursor = cursor ∧
      (confirmResult m s).chunkIdx = chunkIdx) :
    confirmResult m s = { s with
      seqState := q, cursor := cursor, chunkIdx := chunkIdx, inflight := false, bytesSent := s.bytesSent + n
      progress := s.progress ++ [s.bytesSent + n], delivered := s.delivered ++ s.cs.getLast?.toList } := by
  obtain ⟨hq, hcursor, hidx⟩ := hmove
  rw [confirmResult_frame, hq, hcursor, hidx, hn, portRequest, if_pos hi]

theorem curLen_sendHdr {s : State} (hq : s.seqState = .sendHdr) : curLen s = some 10 := by
  simp only [curLen, hq]
  rfl

theorem curLen_sendTrl {s : State} (hq : s.seqState = .sendTrl) : curLen s = some 3 := by
  simp only [curLen, hq]
  rfl

/-- LEN of a chunk, at most 128, loses nothing in its 8 bits (R81). -/
theorem setWidth_chunkBytes (s : State) :
    (BitVec.ofNat 8 (chunkBytes s)).setWidth 32 = BitVec.ofNat 32 (chunkBytes s) := by
  have hle : chunkBytes s ≤ 128 := Nat.min_le_left ..
  exact BitVec.setWidth_ofNat_of_le_of_lt (by omega) (by omega)

theorem add_ofNat_eq (c : Word) (n : Nat) : c + BitVec.ofNat 32 n = BitVec.ofNat 32 (c.toNat + n) := by
  rw [BitVec.ofNat_add, BitVec.ofNat_toNat, BitVec.setWidth_eq]

/-- CURSOR reaches PAYLOAD_LEN as a register exactly when it does as a number: the chunk does not pass it (R140, R144). -/
theorem cursor_reaches_payloadLen_iff {s : State} (hc : s.cursor.toNat < s.payloadLen.toNat) :
    BitVec.ofNat 32 (s.cursor.toNat + chunkBytes s) = s.payloadLen ↔
      s.cursor.toNat + chunkBytes s = s.payloadLen.toNat := by
  have hle : s.cursor.toNat + chunkBytes s ≤ s.payloadLen.toNat := by rw [chunkBytes]; omega
  have hlt := s.payloadLen.isLt
  rw [← BitVec.toNat_inj, BitVec.toNat_ofNat, Nat.mod_eq_of_lt (by omega)]

/-- The sequencer's move after a chunk, with CURSOR and its test as numbers. -/
theorem confirmResult_chunk_move {s : State} (hq : s.seqState = .sendChunk)
    (hc : s.cursor.toNat < s.payloadLen.toNat) :
    (confirmResult (BitVec.ofNat 8 (chunkBytes s)) s).seqState =
        (if s.cursor.toNat + chunkBytes s = s.payloadLen.toNat then .sendTrl else .sendChunk) ∧
      (confirmResult (BitVec.ofNat 8 (chunkBytes s)) s).cursor = BitVec.ofNat 32 (s.cursor.toNat + chunkBytes s) ∧
      (confirmResult (BitVec.ofNat 8 (chunkBytes s)) s).chunkIdx = s.chunkIdx + 1 := by
  have hmove := confirmResult_sendChunk hq (BitVec.ofNat 8 (chunkBytes s))
  simpa only [setWidth_chunkBytes, add_ofNat_eq, cursor_reaches_payloadLen_iff hc] using hmove

/-- Settles O12: the current write's length and the sequencer's move, in each busy STATE. -/
theorem rspOkConfirmsCurrentWrite : Obligations.RspOkConfirmsCurrentWrite := by
  refine fun s => ⟨rfl, fun hi => ⟨fun hq => ?_, fun hq hc => ?_, fun hq => ?_⟩⟩
  · rw [exec_rspOk_of_inflight hi (curLen_sendHdr hq), confirmResult_eq hi rfl (confirmResult_sendHdr hq 10)]
    rfl
  · rw [exec_rspOk_of_inflight hi (curLen_sendChunk hq hc),
      confirmResult_eq hi (setWidth_chunkBytes s) (confirmResult_chunk_move hq hc)]
  · rw [exec_rspOk_of_inflight hi (curLen_sendTrl hq), confirmResult_eq hi rfl (confirmResult_sendTrl hq 3)]
    rfl

/-! ### A failed write, and a response to no write (R143, R149, log 4) -/

theorem exec_rspFail_of_inflight {s : State} {g : Stage} (hi : s.inflight = true) (hg : stageOf s = some g) :
    exec .rspFail s = .next (failResult g s) := by
  simp [exec, execRspFail, hi, hg, failResult]

/-- Settles O13: the stage of the current write, in each busy STATE. -/
theorem rspFailRecordsItsStage : Obligations.RspFailRecordsItsStage := by
  refine fun s => ⟨rfl, fun stage hi hstage => ?_⟩
  have hg : stageOf s = some stage := by
    rcases hstage with ⟨hq, rfl⟩ | ⟨hq, rfl⟩ | ⟨hq, rfl⟩ <;> simp only [stageOf, hq]
  exact exec_rspFail_of_inflight hi hg

theorem execRspOk_of_idle_port {s : State} (hi : s.inflight = false) : execRspOk s = .next s :=
  if_neg (Bool.eq_false_iff.mp hi)

theorem execRspFail_of_idle_port {s : State} (hi : s.inflight = false) : execRspFail s = .next s :=
  if_neg (Bool.eq_false_iff.mp hi)

/-- Settles O14: both responses first ask for INFLIGHT. -/
theorem responseWithoutWriteIsIgnored : Obligations.ResponseWithoutWriteIsIgnored :=
  fun _ hi => ⟨execRspOk_of_idle_port hi, execRspFail_of_idle_port hi⟩

end Sys2Proof.Machine
end

section
/-! Proofs for 43_host_interface.md: the reads of the register map and its reserved slots (R161 to R170, R177), the two
configuration registers (R171, R172), and the commands (R173 to R176). -/

namespace Sys2Proof.Machine

open Sys2Proof.Claims

/-! ### START (R174, R201, R202) -/

theorem exec_cmdStart_of_busy {s : State} (hb : isBusy s = true) : exec .cmdStart s = .next s := if_pos hb

theorem exec_cmdStart_of_not_busy {s : State} (hb : ¬ isBusy s = true) : exec .cmdStart s = .next (startJob s) :=
  if_neg hb

theorem dimensionsOverflow_iff (w h : BitVec 32) :
    dimensionsOverflow w h = true ↔ 524288 ≤ w.toNat ∨ 65535 < h.toNat := by
  rw [← Bool.not_eq_false, dimensionsOverflow_eq_false_iff]
  omega

theorem dimensionsInvalid_iff (w h : BitVec 32) :
    dimensionsInvalid w h = true ↔ w.toNat = 0 ∨ h.toNat = 0 ∨ w.toNat % 8 ≠ 0 := by
  rw [← Bool.not_eq_false, dimensionsInvalid_eq_false_iff]
  omega

/-- Dimensions that fit their halves of GEOMETRY stand there as numbers (R25). -/
theorem geometryOf_eq {wbytes h : BitVec 32} (hw : wbytes.toNat ≤ 65535) (hh : h.toNat ≤ 65535) :
    geometryOf wbytes h = BitVec.ofNat 32 (h.toNat * 65536 + wbytes.toNat) := by
  apply BitVec.eq_of_toNat_eq
  rw [geometryOf, BitVec.toNat_append, low_half_toNat hw, low_half_toNat hh,
    ← Nat.shiftLeft_add_eq_or_of_lt (by omega), Nat.shiftLeft_eq, BitVec.toNat_ofNat]
  omega

/-- PAYLOAD_LEN of a job without overflow is the product itself: it fits 32 bits (R26, R53). -/
theorem beginJob_payloadLen_toNat {w h : BitVec 32} (hov : dimensionsOverflow w h = false) (s : State) :
    (beginJob w h s).payloadLen.toNat = w.toNat / 8 * h.toNat := by
  obtain ⟨hw, hh⟩ := (dimensionsOverflow_eq_false_iff w h).mp hov
  have hprod : w.toNat / 8 * h.toNat ≤ 65535 * 65535 := Nat.mul_le_mul hw hh
  rw [beginJob_payloadLen, widthBytes_toNat, BitVec.toNat_ofNat, Nat.mod_eq_of_lt (by omega)]

theorem beginJob_geometry_eq {w h : BitVec 32} (hov : dimensionsOverflow w h = false) (s : State) :
    (beginJob w h s).geometry = BitVec.ofNat 32 (h.toNat * 65536 + w.toNat / 8) := by
  obtain ⟨hw, hh⟩ := (dimensionsOverflow_eq_false_iff w h).mp hov
  rw [← widthBytes_toNat] at hw ⊢
  exact geometryOf_eq hw hh

/-- A failed validation leaves the cleared session in FAILED with the code (R203). -/
theorem fail_clearSession (code : ErrCode) (s : State) : fail code .none (clearSession s) = cleared s .failed code := rfl

/-- Beginning a job changes the cleared session in four fields, apart from STATE (R174). -/
theorem beginJob_clearSession (w h : BitVec 32) (s : State) :
    beginJob w h (clearSession s) = { cleared s .sendHdr .none with
      geometry := (beginJob w h (clearSession s)).geometry
      payloadLen := (beginJob w h (clearSession s)).payloadLen
      bm := encodeImage s.pm s.draws w.toNat h.toNat
      draws := (beginJob w h (clearSession s)).draws } := rfl

/-- Settles O8: ignored while busy, else the three outcomes of START in the order of its checks. -/
theorem startValidatesThenBegins : Obligations.StartValidatesThenBegins := by
  intro s
  by_cases hb : isBusy s = true
  · rw [if_pos hb]
    exact exec_cmdStart_of_busy hb
  rw [if_neg hb, exec_cmdStart_of_not_busy hb]
  have hover := dimensionsOverflow_iff s.widthPx s.height
  have hbad := dimensionsInvalid_iff s.widthPx s.height
  rcases startJob_cases s with ⟨hov, he⟩ | ⟨hov, hinv, he⟩ | ⟨hov, hinv, he⟩
  · rw [if_pos (hover.mp hov), he, fail_clearSession]
  · rw [if_neg (mt hover.mpr (ne_true_of_eq_false hov)), if_pos (hbad.mp hinv), he, fail_clearSession]
  · rw [if_neg (mt hover.mpr (ne_true_of_eq_false hov)), if_neg (mt hbad.mpr (ne_true_of_eq_false hinv)), he]
    refine ⟨_, rfl, ?_, beginJob_payloadLen_toNat hov _⟩
    rw [← beginJob_geometry_eq hov (clearSession s)]
    exact beginJob_clearSession _ _ s

/-! ### CLEAR (R175) -/

theorem leaveEndState_eq_cleared (s : State) : leaveEndState s = cleared s .idle .none := rfl

/-- Settles O9: the end states are those in which CLEAR leaves. -/
theorem clearLeavesEndStatesOnly : Obligations.ClearLeavesEndStatesOnly := by
  intro s
  rw [← jobEnd_iff, ← leaveEndState_eq_cleared]
  exact ⟨fun hend => if_pos hend, fun hend => if_neg hend⟩

/-! ### The command code (R73, R173, R176) -/

/-- The command code of a data word is its low four bits (R73). -/
theorem cmdField_append (upper : BitVec 28) (cmd : BitVec 4) : cmdField (upper ++ cmd) = cmd :=
  BitVec.extractLsb'_append_eq_right ..

theorem decodeCommand_eq (cmd : BitVec 4) :
    decodeCommand cmd =
      if cmd = 0 then .cmdNop else if cmd = 1 then .cmdStart else if cmd = 2 then .cmdClear else .cmdRsvd cmd := by
  split_ifs with h0 h1 h2
  · rw [h0]; rfl
  · rw [h1]; rfl
  · rw [h2]; rfl
  · exact decodeCommand_of_reserved (decide_eq_true (by bv_omega))

/-- A write of CTRL decodes by its command code alone (R73). -/
theorem decode_write_ctrl (low : BitVec 2) (upper : BitVec 28) (cmd : BitVec 4) :
    decode (.hb (hbTransaction 1 0 low (upper ++ cmd))) = .ok (decodeCommand cmd) := by
  have hcmd : decodeWrite 0 (upper ++ cmd) = decodeCommand cmd := congrArg decodeCommand (cmdField_append upper cmd)
  rw [decode_write, hcmd]

/-- Settles O7: the code decodes alone, and NOP and the reserved codes do nothing. -/
theorem commandsDecodeByLowFourBits : Obligations.CommandsDecodeByLowFourBits := by
  intro s low upper cmd
  refine ⟨?_, rfl, rfl⟩
  rw [decode_write_ctrl, decodeCommand_eq]

/-! ### Reads and writes of the register map (R160 to R172, R177) -/

/-- A read of a slot returns the register map's word and changes nothing else (R160). -/
theorem readsAs_registerMap (slot : BitVec 6) : ReadsAs slot (decodeRead slot) (fun s => registerMap s slot.toNat) :=
  fun s low wdata => ⟨decode_read slot low wdata, exec_decodeRead slot s⟩

/-- Settles O6: the reserved reads and the ignored writes by their slots. -/
theorem reservedSlotsReadZeroAndIgnoreWrites : Obligations.ReservedSlotsReadZeroAndIgnoreWrites := by
  refine fun s slot low wdata => ⟨fun hslot => ⟨?_, rfl⟩, fun hslot => ⟨?_, rfl⟩⟩
  · rw [decode_read, decodeRead_of_reserved (decide_eq_true hslot)]
  · rw [decode_write, decodeWrite_of_ignored ((ignoredWriteSlot_iff slot).mpr (by omega))]

/-- Settles O1: the register map's words of slots 0 and 9. -/
theorem constantRegistersRead : Obligations.ConstantRegistersRead :=
  ⟨readsAs_registerMap 0, readsAs_registerMap 9⟩

/-- Settles O2: the map's words of slots 2 and 3, which the two writes set. -/
theorem configRegistersReadBackAsWritten : Obligations.ConfigRegistersReadBackAsWritten :=
  ⟨readsAs_registerMap 2, readsAs_registerMap 3,
    fun _ low v => ⟨decode_write 2 low v, rfl, rfl, decode_write 3 low v, rfl, rfl⟩⟩

/-! ### The session registers in a sound state (R37, R165, R166, R168, R169) -/

/-- GEOMETRY is its two fields joined (R25). -/
theorem geometry_eq_append (s : State) : s.geometry = geomHt s ++ geomWb s :=
  calc s.geometry = s.geometry.extractLsb' 0 32 := BitVec.extractLsb'_eq_self.symm
    _ = geomHt s ++ geomWb s := (BitVec.extractLsb'_append_extractLsb'_eq_extractLsb' (len₁ := 16) (len₂ := 16) rfl).symm

/-- In IDLE and after a failed validation there is no session (R37). -/
theorem SessionRow.noSession {s : State} (h : SessionRow s)
    (hq : s.seqState = .idle ∨ (s.seqState = .failed ∧ s.errCode ≠ .channelWriteFailed)) : NoSession s := by
  rcases hq with hq | ⟨hq, he⟩
  · exact ((sessionRow_idle hq).mp h).1
  · rcases ((sessionRow_failed hq).mp h).1 with ⟨hno, -⟩ | ⟨hcode, -⟩
    · exact hno
    · exact absurd hcode he

/-- In every row of R37 there is no session, or GEOMETRY and PAYLOAD_LEN are those of a job. -/
theorem SessionRow.noSession_or_validGeometry {s : State} (h : SessionRow s) : NoSession s ∨ ValidGeometry s := by
  cases hq : s.seqState with
  | idle => exact .inl (h.noSession (.inl hq))
  | sendHdr | sendChunk | sendTrl => exact .inr (h.validGeometry_of_isBusy ((isBusy_iff s).mpr (by simp [hq])))
  | done => exact .inr ((sessionRow_done hq).mp h).1.1
  | failed =>
    rcases ((sessionRow_failed hq).mp h).1 with ⟨hno, -⟩ | ⟨-, ⟨-, hrow⟩ | ⟨-, hrow⟩ | ⟨-, hrow⟩⟩
    · exact .inl hno
    · exact .inr hrow.1
    · exact .inr hrow.1
    · exact .inr hrow.1

theorem SessionRow.payloadLen_le {s : State} (h : SessionRow s) : s.payloadLen.toNat ≤ 0xFFFE0001 := by
  rcases h.noSession_or_validGeometry with ⟨-, hlen, -⟩ | hvalid
  · rw [hlen]
    exact Nat.zero_le _
  · exact hvalid.payloadLen_le

/-- While payload or trailer is sent, BYTES_SENT is the header and the payload bytes before CURSOR (R168). -/
theorem SessionRow.bytesSent_eq_cursor {s : State} (h : SessionRow s)
    (hq : s.seqState = .sendChunk ∨ s.seqState = .sendTrl) : s.cursor.toNat + 10 = s.bytesSent.toNat := by
  rcases hq with hq | hq
  · obtain ⟨⟨-, -, -, -, hcur, hsent⟩, -⟩ := (sessionRow_sendChunk hq).mp h
    rw [hcur, hsent, Nat.add_comm, Config.headerLen]
  · obtain ⟨⟨-, -, hcur, hsent⟩, -⟩ := (sessionRow_sendTrl hq).mp h
    rw [hcur, hsent, Nat.add_comm, Config.headerLen]

/-- With the payload confirmed, CHUNK_IDX is the number of chunks (R169). -/
theorem SessionRow.chunkIdx_eq {s : State} (h : SessionRow s) (hq : s.seqState = .sendTrl ∨ s.seqState = .done) :
    s.chunkIdx.toNat = (s.payloadLen.toNat + 127) / 128 := by
  rcases hq with hq | hq
  · obtain ⟨⟨-, hidx, -⟩, -⟩ := (sessionRow_sendTrl hq).mp h
    rw [hidx, chunkCount_eq]
  · obtain ⟨⟨-, hidx, -⟩, -⟩ := (sessionRow_done hq).mp h
    rw [hidx, chunkCount_eq]

/-- Settles O3: the register map's words of slots 4 to 8, and the rows of R37 for what they are in a sound state. -/
theorem sessionRegistersRead : Obligations.SessionRegistersRead := by
  refine ⟨readsAs_registerMap 4, readsAs_registerMap 5, readsAs_registerMap 6, readsAs_registerMap 7,
    readsAs_registerMap 8, fun s h => ⟨fun hq => ?_, geometry_eq_append s, h.session.payloadLen_le,
      h.session.bytesSent_eq_cursor, h.session.chunkIdx_eq⟩⟩
  obtain ⟨hgeom, -⟩ := h.session.noSession hq
  exact hgeom

end Sys2Proof.Machine
end

section
/-! Proofs for 60_exceptions.md: how the end states DONE and FAILED are entered (R203, R205) and left (R205, R209), what
holds in them (R210, R238), and the order of the events of one cycle (R208). -/

namespace Sys2Proof.Machine

open Sys2Proof.Claims

/-! ### The events of one cycle (R208, log 16) -/

/-- Settles O54: the turn is replaced on the agenda by its events, in their order. -/
theorem cycleEventsAreOrdered : Obligations.CycleEventsAreOrdered :=
  fun _ _ _ _ => ⟨fun _ _ ha => step_of_together ha, fun ha => step_of_together ha⟩

/-! ### Leaving an end state (R205, R209, R210, R238) -/

/-- Only a busy STATE has a current write (R140). -/
theorem isBusy_of_curLen {s : State} {m : BitVec 8} (h : curLen s = some m) : isBusy s = true := by
  unfold curLen at h
  split at h
  case h_1 hq => exact (isBusy_iff s).mpr (.inl hq)
  case h_2 hq => exact (isBusy_iff s).mpr (.inr (.inl hq))
  case h_3 hq => exact (isBusy_iff s).mpr (.inr (.inr hq))
  all_goals cases h

/-- Only a busy STATE has a stage (R140). -/
theorem isBusy_of_stageOf {s : State} {g : Stage} (h : stageOf s = some g) : isBusy s = true := by
  unfold stageOf at h
  split at h
  case h_1 hq => exact (isBusy_iff s).mpr (.inl hq)
  case h_2 hq => exact (isBusy_iff s).mpr (.inr (.inl hq))
  case h_3 hq => exact (isBusy_iff s).mpr (.inr (.inr hq))
  all_goals cases h

/-- The stage of a current write is the header, the payload or the trailer (R140). -/
theorem stage_ne_none_of_stageOf {s : State} {g : Stage} (h : stageOf s = some g) : g ≠ .none := by
  unfold stageOf at h
  split at h
  all_goals cases h
  all_goals nofun

/-- START outside a job fails its validation, with the session cleared, or begins a job (R174, R203). -/
theorem startJob_fails_or_begins (s : State) :
    (∃ code, (code = .dimensionOverflow ∨ code = .invalidDimensions) ∧ startJob s = cleared s .failed code) ∨
      (startJob s).seqState = .sendHdr := by
  rcases startJob_cases s with ⟨-, he⟩ | ⟨-, -, he⟩ | ⟨-, -, he⟩
  · exact .inl ⟨_, .inl rfl, he.trans (fail_clearSession _ s)⟩
  · exact .inl ⟨_, .inr rfl, he.trans (fail_clearSession _ s)⟩
  · exact .inr (he ▸ rfl)

/-- In an end state no write is current, so no response and no issue step acts: a step is CLEAR, START or reset,
or it keeps the session. -/
theorem jobEnd_step_cases {s t : State} (hend : jobEnd s = true) (hstep : step s = .next t) :
    SameSession s t ∨ (NextIs s .cmdClear ∧ t.seqState = .idle) ∨
      (NextIs s .cmdStart ∧ (t.seqState = .failed ∨ t.seqState = .sendHdr)) ∨
      (NextIs s .reset ∧ t.seqState = .idle) := by
  have hidle : ¬ isBusy s = true := fun hb => by cases hend.symm.trans (jobEnd_of_isBusy hb)
  obtain ⟨rest, c, hcause, he⟩ := step_effect hstep
  cases he with
  | clear => exact .inr (.inl ⟨nextIs_of_caused hcause, rfl⟩)
  | start =>
    refine .inr (.inr (.inl ⟨nextIs_of_caused hcause, ?_⟩))
    exact (startJob_fails_or_begins _).imp_left fun ⟨_, _, ht⟩ => ht ▸ rfl
  | reset => exact .inr (.inr (.inr ⟨nextIs_of_caused hcause, rfl⟩))
  | confirm m hi hm => exact absurd (isBusy_of_curLen hm) hidle
  | failure g hi hg => exact absurd (isBusy_of_stageOf hg) hidle
  | issue c m bytes hen hm hb => exact absurd (isBusy_of_curLen hm) hidle
  | same | read | width | height | pixel | cycle => exact .inl ⟨rfl, rfl, rfl, rfl, rfl, rfl, rfl, rfl, rfl⟩

/-- The three ways out of an end state, other than a START that fails and so enters FAILED (R205, R209). -/
theorem step_leaves_end_state {s t : State} (hend : jobEnd s = true) (hstep : step s = .next t)
    (hne : t.seqState ≠ s.seqState) (hfailed : t.seqState ≠ .failed) :
    (NextIs s .cmdClear ∧ t.seqState = .idle) ∨ (NextIs s .cmdStart ∧ t.seqState = .sendHdr) ∨
      (NextIs s .reset ∧ t.seqState = .idle) := by
  rcases jobEnd_step_cases hend hstep with ⟨hq, -⟩ | hclear | ⟨hnext, hq⟩ | hreset
  · exact absurd hq hne
  · exact .inl hclear
  · exact .inr (.inl ⟨hnext, hq.resolve_left hfailed⟩)
  · exact .inr (.inr hreset)

/-- Settles O44: FAILED is an end state. -/
theorem failedIsLeftByClearStartOrReset : Obligations.FailedIsLeftByClearStartOrReset :=
  fun s _ hq hstep hq' => step_leaves_end_state ((jobEnd_iff s).mpr (.inr hq)) hstep (hq ▸ hq') hq'

/-- Settles O47: a step from an end state that is none of the three keeps the session, whether or not the state is sound. -/
theorem endStateRegistersAreStable : Obligations.EndStateRegistersAreStable := by
  intro s t _ hend hstep hstart hclear hreset
  rcases jobEnd_step_cases hend hstep with hsame | ⟨hnext, -⟩ | ⟨hnext, -⟩ | ⟨hnext, -⟩
  · exact hsame
  · exact absurd hnext hclear
  · exact absurd hnext hstart
  · exact absurd hnext hreset

/-! ### Entering an end state (R203, R205) -/

/-- An end state is entered by the confirmation of the trailer, by a failed write, or by a START that fails its
validation. -/
theorem Effect.enters_end_state {s t : State} {c : Cause} (he : Effect s c t) (hend : jobEnd t = true)
    (hne : t.seqState ≠ s.seqState) :
    (c = .op .rspOk ∧ t.seqState = .done) ∨
    (c = .op .rspFail ∧ ∃ g, g ≠ .none ∧ t = failResult g s) ∨
    (c = .op .cmdStart ∧ ∃ code, (code = .dimensionOverflow ∨ code = .invalidDimensions) ∧ t = cleared s .failed code) := by
  cases he with
  | confirm m hi hm =>
    refine .inl ⟨rfl, (confirmResult_isBusy_or_done (isBusy_of_curLen hm) m).resolve_left fun hb => ?_⟩
    cases hend.symm.trans (jobEnd_of_isBusy hb)
  | failure g hi hg => exact .inr (.inl ⟨rfl, g, stage_ne_none_of_stageOf hg, rfl⟩)
  | start =>
    refine .inr (.inr ⟨rfl, (startJob_fails_or_begins s).resolve_right fun hq => ?_⟩)
    cases hend.symm.trans (jobEnd_of_isBusy ((isBusy_iff _).mpr (.inl hq)))
  | clear | reset => cases hend
  | same | read | width | height | issue | pixel | cycle => exact absurd rfl hne

/-- Settles O45: a confirmation enters DONE, so FAILED is entered by a failed write or a failed START. -/
theorem failedIsEnteredOnlyByFailure : Obligations.FailedIsEnteredOnlyByFailure := by
  intro s t hs hstep ht
  obtain ⟨rest, c, hcause, he⟩ := step_effect hstep
  have hne : t.seqState ≠ s.seqState := fun heq => hs (heq ▸ ht)
  rcases he.enters_end_state ((jobEnd_iff t).mpr (.inr ht)) hne with
    ⟨-, hdone⟩ | ⟨rfl, g, hg, rfl⟩ | ⟨rfl, code, hcode, rfl⟩
  · cases ht.symm.trans hdone
  · exact ⟨rfl, rfl, rfl, rfl, .inr ⟨nextIs_of_caused hcause, rfl, hg, rfl, rfl, rfl, rfl, rfl⟩⟩
  · exact ⟨rfl, rfl, rfl, rfl, .inl ⟨nextIs_of_caused hcause, hcode, rfl, clearSession_noSession s⟩⟩

/-- Settles O48: a rise enters an end state, and a fall leaves one. -/
theorem jobEndRisesAndFalls : Obligations.JobEndRisesAndFalls := by
  refine fun s t hstep => ⟨fun hs ht => ?_, fun hs ht => ?_⟩
  · obtain ⟨rest, c, hcause, he⟩ := step_effect hstep
    have hne : t.seqState ≠ s.seqState := fun heq => by
      rw [jobEnd, heq] at ht
      cases hs.symm.trans ht
    rcases he.enters_end_state ht hne with ⟨rfl, hdone⟩ | ⟨rfl, g, -, rfl⟩ | ⟨rfl, code, -, rfl⟩
    · exact .inl ⟨nextIs_of_caused hcause, hdone⟩
    · exact .inr (.inl ⟨nextIs_of_caused hcause, rfl⟩)
    · exact .inr (.inr ⟨nextIs_of_caused hcause, rfl⟩)
  · refine step_leaves_end_state hs hstep (fun heq => ?_) (fun hq => ?_)
    · rw [jobEnd, heq] at ht
      cases ht.symm.trans hs
    · cases ht.symm.trans ((jobEnd_iff t).mpr (.inr hq))

end Sys2Proof.Machine
end

section
/-! Proofs for 70_reset_and_hazards.md: the registers, the outputs and the frame of RESET (R230). -/

namespace Sys2Proof.Machine

/-! ### RESET (R230) -/

theorem exec_reset (s : State) : exec .reset s = .next (resetBlock s) := rfl

/-- The four fields STATUS looks at are those of State.reset, whatever the state before. -/
@[simp] theorem statusWord_resetBlock (s : State) : statusWord (resetBlock s) = 0 :=
  calc statusWord (resetBlock s)
    _ = statusWord State.reset :=
      statusWord_eq (resetBlock_seqState s) (resetBlock_errCode s) (resetBlock_errStage s) (resetBlock_inflight s)
    _ = 0 := by decide

@[simp] theorem isBusy_resetBlock (s : State) : isBusy (resetBlock s) = false := rfl

@[simp] theorem jobEnd_resetBlock (s : State) : jobEnd (resetBlock s) = false := rfl

/-- Reset takes an outstanding write off the channel port; the stream keeps it. -/
@[simp] theorem portRequest_resetBlock (s : State) : portRequest (resetBlock s) = none := rfl

/-- Settles O37: the next state is resetBlock, whose registers and frame are the record of the statement. -/
theorem resetClearsEveryRegister : Obligations.ResetClearsEveryRegister :=
  ⟨decode_encode (i := .reset) rfl, fun s => ⟨resetBlock s, exec_reset s, rfl, statusWord_resetBlock s,
    isBusy_resetBlock s, jobEnd_resetBlock s, portRequest_resetBlock s⟩⟩

end Sys2Proof.Machine
end
